-- ==== Sys2Proof/Word.lean ====
section
/-!
DEFINITION. The words the frames are made of (R11, R12) and the fixed-size arrays of the frames and signals.
-/

namespace Sys2Proof

/-- A byte (R11). -/
abbrev Byte := BitVec 8

/-- u16: an unsigned 16-bit integer (R12). -/
abbrev U16 := BitVec 16

/-- i32: a 32-bit two's complement integer, held as its 32-bit pattern (R12). -/
abbrev I32 := BitVec 32

/-- f32: an IEEE-754 binary32 value, held as its 32-bit pattern (R12, R74). -/
abbrev F32 := BitVec 32

/-- f64: an IEEE-754 binary64 value, held as its 64-bit pattern (R12). -/
abbrev F64 := BitVec 64

/-- One value per axis, indices 0 to 2 (`N_AXES` = 3, R8). -/
structure Axes (α : Type) where
  a0 : α
  a1 : α
  a2 : α
deriving DecidableEq, Repr

/-- One value per PWM channel or digital output, indices 0 to 5 (`N_PWM` = `N_DOUT` = 6, R8). -/
structure Channels (α : Type) where
  c0 : α
  c1 : α
  c2 : α
  c3 : α
  c4 : α
  c5 : α
deriving DecidableEq, Repr

/-- One value per digital input, indices 0 to 7 (`N_DIN` = 8, R8). -/
structure Octet (α : Type) where
  k0 : α
  k1 : α
  k2 : α
  k3 : α
  k4 : α
  k5 : α
  k6 : α
  k7 : α
deriving DecidableEq, Repr

/-- Element `i` of an axis array. -/
def Axes.get {α : Type} (x : Axes α) : Fin 3 → α
  | 0 => x.a0
  | 1 => x.a1
  | 2 => x.a2

/-- The axis array whose element `i` is `f i`. -/
def Axes.ofFn {α : Type} (f : Fin 3 → α) : Axes α := ⟨f 0, f 1, f 2⟩

/-- The same value on every axis. -/
def Axes.all {α : Type} (v : α) : Axes α := ⟨v, v, v⟩

/-- The elements in index order. -/
def Axes.toList {α : Type} (x : Axes α) : List α := [x.a0, x.a1, x.a2]

/-- Element `j` of a channel array. -/
def Channels.get {α : Type} (x : Channels α) : Fin 6 → α
  | 0 => x.c0
  | 1 => x.c1
  | 2 => x.c2
  | 3 => x.c3
  | 4 => x.c4
  | 5 => x.c5

/-- The channel array whose element `j` is `f j`. -/
def Channels.ofFn {α : Type} (f : Fin 6 → α) : Channels α := ⟨f 0, f 1, f 2, f 3, f 4, f 5⟩

/-- The same value on every channel. -/
def Channels.all {α : Type} (v : α) : Channels α := ⟨v, v, v, v, v, v⟩

/-- The elements in index order. -/
def Channels.toList {α : Type} (x : Channels α) : List α := [x.c0, x.c1, x.c2, x.c3, x.c4, x.c5]

/-- Element `k` of an input array. -/
def Octet.get {α : Type} (x : Octet α) : Fin 8 → α
  | 0 => x.k0
  | 1 => x.k1
  | 2 => x.k2
  | 3 => x.k3
  | 4 => x.k4
  | 5 => x.k5
  | 6 => x.k6
  | 7 => x.k7

/-- The input array whose element `k` is `f k`. -/
def Octet.ofFn {α : Type} (f : Fin 8 → α) : Octet α := ⟨f 0, f 1, f 2, f 3, f 4, f 5, f 6, f 7⟩

/-- The same value at every index. -/
def Octet.all {α : Type} (v : α) : Octet α := ⟨v, v, v, v, v, v, v, v⟩

end Sys2Proof
end

