-- ==== Sys2Proof/Config.lean ====
section
/-!
DEFINITION. The parameters of the block (R8, R9) and the free values (93_implementation_defined.md, "any value").
-/

namespace Sys2Proof

/-- Byte order of the multi-byte fields (R50). -/
inductive Endian where
  | little
  | big
deriving DecidableEq, Repr

/-- `ENDIAN`, default little (R9, decision D1; log 18). -/
def Config.endian : Endian := .little

/-- `FLAG_DIRSETUP` (R9, decision D2; log 18). -/
def Config.flagDirsetup : Byte := 0x01

/-- `FLAG_ACCEL` (R9, decision D2; log 18). -/
def Config.flagAccel : Byte := 0x02

/-- `FLAG_PWMFREQ` (R9, decision D2; log 18). -/
def Config.flagPwmfreq : Byte := 0x04

/-- `FLAG_READY` (R9, decision D2; log 18). -/
def Config.flagReady : Byte := 0x40

/-- `FLAG_ENABLE` (R9, decision D2; log 18). -/
def Config.flagEnable : Byte := 0x80

/-- `CHECKSUM_SEED` = 71 (R8). -/
def Config.checksumSeed : Byte := 71

/-- `PWM_MAX` = 1023: the duty scale factor and the upper clamp (R8). -/
def Config.pwmMax : Nat := 1023

/-- `CMD_LEN` = 38 (R8). -/
def Config.cmdLen : Nat := 38

/-- `CMD_WIRE_LEN` = 39 (R8). -/
def Config.cmdWireLen : Nat := 39

/-- `FB_LEN` = 26 (R8). -/
def Config.fbLen : Nat := 26

/-- `LOSS_WIDTH` = 32 (R9, decision D21; log 18). -/
abbrev Config.lossWidth : Nat := 32

/-- `REAL` = IEEE-754 binary64: the type of every real-valued host input and output, held as its pattern (R9,
decision D8; log 18). -/
abbrev Config.Real : Type := F64

/-- `DIRSETUP_WIDTH` = 32 (R9, decision D12; log 18). -/
abbrev Config.dirSetupWidth : Nat := 32

/-- `PWMFREQ_WIDTH` = 32 (R9, decision D13; log 18). -/
abbrev Config.pwmFreqWidth : Nat := 32

/-! Free values (log 9): no body, so nothing can be proved of one. `draw` is the state's draw counter,
`site` tells the values of one draw apart. -/

/-- A free Bool. DESIGN CHOICE (log 9). -/
opaque Config.freeBool (draw site : Nat) : Bool

/-- A free natural number. DESIGN CHOICE (log 9). -/
opaque Config.freeNat (draw site : Nat) : Nat

/-- A free byte. DESIGN CHOICE (log 9). -/
opaque Config.freeByte (draw site : Nat) : BitVec 8

/-- A free 16-bit word (`draw u16`, R109). DESIGN CHOICE (log 9). -/
opaque Config.free16 (draw site : Nat) : BitVec 16

/-- A free 32-bit word (`draw i32`, R107, and the NaN draw of R108). DESIGN CHOICE (log 9). -/
opaque Config.free32 (draw site : Nat) : BitVec 32

/-- A free 64-bit word (the NaN draw of R118). DESIGN CHOICE (log 9). -/
opaque Config.free64 (draw site : Nat) : BitVec 64

end Sys2Proof
end

