-- ==== Sys2Proof/Syntax.lean ====
section
/-!
DEFINITION. The frames (R22, R24), the frame kinds and stages (R76, R99), the instructions (every row of the
opcode table) and what the decoder reads.
-/

namespace Sys2Proof

/-- The driver-to-device frame, fields in declared order (R22, R65). -/
structure CommandFrame where
  control : Byte
  io : Byte
  pwm : Channels U16
  pos : Axes I32
  vel : Axes F32
deriving DecidableEq, Repr

/-- The device-to-driver frame, fields in declared order (R24, R66). -/
structure FeedbackFrame where
  control : Byte
  io : Byte
  pos : Axes I32
  vel : Axes F32
deriving DecidableEq, Repr

/-- `ZERO_CMD`: every field 0 (R100). -/
def CommandFrame.zero : CommandFrame := ⟨0, 0, Channels.all 0, Axes.all 0, Axes.all 0⟩

/-- `ZERO_FB`: every field 0 (R41, R130). -/
def FeedbackFrame.zero : FeedbackFrame := ⟨0, 0, Axes.all 0, Axes.all 0⟩

/-- The command frame kinds the block emits (R76). -/
inductive FrameKind where
  | run
  | dirsetup
  | accel
  | pwmfreq
  | idle
deriving DecidableEq, Repr

/-- HandshakeStage: derived, not stored (R26, R99). -/
inductive HandshakeStage where
  | sendDirsetup
  | sendAccel
  | sendPwmFreq
  | operational
deriving DecidableEq, Repr

/-- The result of a decoding function: a value or `SizeMismatch` (R87, R88). -/
inductive Decoded (α : Type) where
  | ok (value : α)
  | sizeMismatch
deriving DecidableEq, Repr

/-- The rows of spec/opcode_table.json. A command kind's one operand is its ENABLE bit `e` (the builders'
`ebit`, R97): its payload is computed from the sampled inputs (R101 to R105; log 16). INIT, CYCLE and SHUTDOWN
are selected at the host interface, where their operands stand (R82, R130; log 2). -/
inductive Instr where
  /-- CMD_RUN (R101). -/
  | cmdRun (e : Bool)
  /-- CMD_DIRSETUP (R102). -/
  | cmdDirsetup (e : Bool)
  /-- CMD_ACCEL (R103). -/
  | cmdAccel (e : Bool)
  /-- CMD_PWMFREQ (R104). -/
  | cmdPwmfreq (e : Bool)
  /-- CMD_IDLE (R105). -/
  | cmdIdle (e : Bool)
  /-- FB, a feedback datagram (R78, R88). -/
  | fb (frame : FeedbackFrame)
  /-- INIT (R130). -/
  | init
  /-- CYCLE (R93). -/
  | cycle
  /-- SHUTDOWN (R134). -/
  | shutdown
deriving DecidableEq, Repr

/-- What the decoder reads: a datagram, or an operation-select code of the host interface (R82). -/
inductive Code where
  | datagram (bytes : List Byte)
  | select (op : BitVec 2)
deriving DecidableEq, Repr

/-- Why the decoder refuses a code. -/
inductive Reject where
  /-- A 39-byte datagram whose control byte is `RESERVED` (R77, R79). -/
  | reservedControl
  /-- A datagram of neither 39 nor 26 bytes (R79, R80). -/
  | badLength
  /-- Operation select 00 (R82). -/
  | opSelectNone
deriving DecidableEq, Repr

/-- The decoder's answer. -/
inductive DecodeResult where
  | instr (i : Instr)
  | rejected (why : Reject)
deriving DecidableEq, Repr

end Sys2Proof
end

