-- ==== Sys2Proof/Decode.lean ====
section
/-!
DEFINITION. The Frame Codec (R45 to R53, R65 to R75, R84 to R89), the decoder of instructions and, after it, the
encoder.
-/

namespace Sys2Proof

/-! ## Fields of a frame buffer -/

/-- The `n` bytes of `v`, least significant first: byte `k` is `(v >> 8k) & 0xFF` (R48). -/
def leBytes : Nat → Nat → List Byte
  | 0, _ => []
  | n + 1, v => BitVec.ofNat 8 v :: leBytes n (v / 256)

/-- The sum of `b[k] * 2^(8k)` (R47). -/
def leValue : List Byte → Nat
  | [] => 0
  | b :: bs => b.toNat + 256 * leValue bs

/-- The order of a field's bytes in the buffer: `big` reverses the bytes of each field (R50). -/
def inOrder (en : Endian) (bs : List Byte) : List Byte :=
  match en with
  | .little => bs
  | .big => bs.reverse

/-- Puts the bytes `bs` at offsets `o`, `o + 1`, … and changes no other byte. -/
def putBytes : List Byte → Nat → List Byte → List Byte
  | buf, _, [] => buf
  | buf, o, b :: bs => putBytes (buf.set o b) (o + 1) bs

/-- `MemRead(buf, o, n)` (R47). -/
def memRead (buf : List Byte) (o n : Nat) : List Byte := (buf.drop o).take n

/-- The value of the `n`-byte field at offset `o` (R47, R50). -/
def fieldAt (en : Endian) (buf : List Byte) (o n : Nat) : Nat :=
  leValue (inOrder en (memRead buf o n))

/-- `MemWrite(buf, o, n, v)` (R48, R50). -/
def memWrite (en : Endian) (buf : List Byte) (o n v : Nat) : List Byte :=
  putBytes buf o (inOrder en (leBytes n v))

/-- `MemWrite` of an array: consecutive `n`-byte fields from offset `o`. -/
def memWriteEach (en : Endian) : List Byte → Nat → Nat → List Nat → List Byte
  | buf, _, _, [] => buf
  | buf, o, n, v :: vs => memWriteEach en (memWrite en buf o n v) (o + n) n vs

/-! ## The codec functions -/

/-- The XOR of a byte sequence into a starting value. -/
def xorFold (c : Byte) (p : List Byte) : Byte := p.foldl (fun a b => a ^^^ b) c

/-- `CHECKSUM(p)` (R84). -/
def checksum (p : List Byte) : Byte := xorFold Config.checksumSeed p

/-- The 38 bytes of the serialized CommandFrame in the byte order `en` (R65, R85), in a buffer of 39 bytes
whose last byte is still 0. -/
def serializeCmd (en : Endian) (c : CommandFrame) : List Byte :=
  let b := List.replicate Config.cmdWireLen (0 : Byte)
  let b := memWrite en b 0 1 c.control.toNat
  let b := memWrite en b 1 1 c.io.toNat
  let b := memWriteEach en b 2 2 (c.pwm.toList.map BitVec.toNat)
  let b := memWriteEach en b 14 4 (c.pos.toList.map BitVec.toNat)
  memWriteEach en b 26 4 (c.vel.toList.map BitVec.toNat)

/-- `ENCODE_CMD` in the byte order `en` (R85). -/
def encodeCmdIn (en : Endian) (c : CommandFrame) : List Byte :=
  let b := serializeCmd en c
  memWrite en b 38 1 (checksum (b.take Config.cmdLen)).toNat

/-- `ENCODE_CMD(cmd)` (R85). -/
def encodeCmd (c : CommandFrame) : List Byte := encodeCmdIn Config.endian c

/-- `VERIFY_CMD(b)` (R86). -/
def verifyCmd (b : List Byte) : Bool :=
  b.length == Config.cmdWireLen && xorFold Config.checksumSeed b == 0

/-- The CommandFrame read at the offsets of R65 (R87). -/
def readCmd (en : Endian) (b : List Byte) : CommandFrame where
  control := BitVec.ofNat 8 (fieldAt en b 0 1)
  io := BitVec.ofNat 8 (fieldAt en b 1 1)
  pwm := Channels.ofFn fun i => BitVec.ofNat 16 (fieldAt en b (2 + 2 * i.val) 2)
  pos := Axes.ofFn fun i => BitVec.ofNat 32 (fieldAt en b (14 + 4 * i.val) 4)
  vel := Axes.ofFn fun i => BitVec.ofNat 32 (fieldAt en b (26 + 4 * i.val) 4)

/-- `DECODE_CMD(b)`: lengths 38 and 39 (R87). -/
def decodeCmd (b : List Byte) : Decoded CommandFrame :=
  if b.length = Config.cmdLen ∨ b.length = Config.cmdWireLen then .ok (readCmd Config.endian b)
  else .sizeMismatch

/-- The FeedbackFrame read at the offsets of R66 (R88). -/
def readFb (en : Endian) (b : List Byte) : FeedbackFrame where
  control := BitVec.ofNat 8 (fieldAt en b 0 1)
  io := BitVec.ofNat 8 (fieldAt en b 1 1)
  pos := Axes.ofFn fun i => BitVec.ofNat 32 (fieldAt en b (2 + 4 * i.val) 4)
  vel := Axes.ofFn fun i => BitVec.ofNat 32 (fieldAt en b (14 + 4 * i.val) 4)

/-- `DECODE_FB(b)`: length 26 only, no checksum and no field check (R88). -/
def decodeFb (b : List Byte) : Decoded FeedbackFrame :=
  if b.length = Config.fbLen then .ok (readFb Config.endian b) else .sizeMismatch

/-- `ENCODE_FB(fb)` in the byte order `en` (R89). -/
def encodeFbIn (en : Endian) (f : FeedbackFrame) : List Byte :=
  let b := List.replicate Config.fbLen (0 : Byte)
  let b := memWrite en b 0 1 f.control.toNat
  let b := memWrite en b 1 1 f.io.toNat
  let b := memWriteEach en b 2 4 (f.pos.toList.map BitVec.toNat)
  memWriteEach en b 14 4 (f.vel.toList.map BitVec.toNat)

/-- `ENCODE_FB(fb)` (R89). -/
def encodeFb (f : FeedbackFrame) : List Byte := encodeFbIn Config.endian f

/-! ## The decoder -/

/-- The control bits of a frame kind without ENABLE (R67, R76). -/
def kindBits (k : FrameKind) : Byte :=
  match k with
  | .run => Config.flagReady
  | .dirsetup => Config.flagDirsetup
  | .accel => Config.flagAccel
  | .pwmfreq => Config.flagPwmfreq
  | .idle => 0

/-- `ebit`: the ENABLE bit as a control byte (R97). -/
def enableBit (e : Bool) : Byte := if e then Config.flagEnable else 0

/-- `kindOf(c)`, total on all bytes; `none` is `RESERVED` (R77). -/
def kindOf (c : Byte) : Option FrameKind :=
  let k := c &&& ~~~Config.flagEnable
  if k = kindBits .run then some .run
  else if k = kindBits .dirsetup then some .dirsetup
  else if k = kindBits .accel then some .accel
  else if k = kindBits .pwmfreq then some .pwmfreq
  else if k = kindBits .idle then some .idle
  else none

/-- The instruction of a frame kind with ENABLE bit `e`. -/
def kindInstr (k : FrameKind) (e : Bool) : Instr :=
  match k with
  | .run => .cmdRun e
  | .dirsetup => .cmdDirsetup e
  | .accel => .cmdAccel e
  | .pwmfreq => .cmdPwmfreq e
  | .idle => .cmdIdle e

/-- The ENABLE bit of a control byte (R67). -/
def enableOf (c : Byte) : Bool := c &&& Config.flagEnable != 0

/-- The operation a select code names; 00 names none (R82). -/
def decodeOp (op : BitVec 2) : Option Instr :=
  if op = 0b01#2 then some .init
  else if op = 0b10#2 then some .cycle
  else if op = 0b11#2 then some .shutdown
  else none

/-- The instruction of a 39-byte command datagram, by its control byte (R76, R77). -/
def decodeControl (c : Byte) : DecodeResult :=
  match kindOf c with
  | some k => .instr (kindInstr k (enableOf c))
  | none => .rejected .reservedControl

/-- The instruction of a datagram: 39 bytes are a command frame, 26 a feedback frame, any other length is
illegal (R79, R80; match_on of the opcode table). -/
def decodeDatagram (b : List Byte) : DecodeResult :=
  if b.length = Config.cmdWireLen then decodeControl (b.headD 0)
  else
    match decodeFb b with
    | .ok f => .instr (.fb f)
    | .sizeMismatch => .rejected .badLength

/-- The decoder, total on every datagram and every select code. -/
def decode (c : Code) : DecodeResult :=
  match c with
  | .datagram b => decodeDatagram b
  | .select op =>
    match decodeOp op with
    | some i => .instr i
    | none => .rejected .opSelectNone

/-! ## The encoder -/

/-- The datagram of a frame kind whose payload fields are all zero, with its checksum. -/
def encodeKind (k : FrameKind) (e : Bool) : List Byte :=
  encodeCmd { CommandFrame.zero with control := kindBits k ||| enableBit e }

/-- The encoder: the words of an instruction (R65, R66, R76, R82). A command kind's payload is no operand of
it (log 16), so it is encoded with a payload of zeros. -/
def encode (i : Instr) : Code :=
  match i with
  | .cmdRun e => .datagram (encodeKind .run e)
  | .cmdDirsetup e => .datagram (encodeKind .dirsetup e)
  | .cmdAccel e => .datagram (encodeKind .accel e)
  | .cmdPwmfreq e => .datagram (encodeKind .pwmfreq e)
  | .cmdIdle e => .datagram (encodeKind .idle e)
  | .fb f => .datagram (encodeFb f)
  | .init => .select 0b01#2
  | .cycle => .select 0b10#2
  | .shutdown => .select 0b11#2

/-- How a table word is laid out for the decoder (log 17): 208 bits are a feedback datagram; one byte holding
1, 2 or 3 is an operation-select code; everything else is a command datagram, zero above its given bits. -/
def codeOfWord (nbits w : Nat) : Code :=
  if nbits = 8 * Config.fbLen then .datagram (leBytes Config.fbLen w)
  else if nbits ≤ 8 ∧ 1 ≤ w ∧ w ≤ 3 then .select (BitVec.ofNat 2 w)
  else .datagram (leBytes Config.cmdWireLen (w % 2 ^ nbits))

/-- The instruction the decoder reads from a table word (log 17). -/
def decodeTableWord (nbits w : Nat) : Option Instr :=
  match decode (codeOfWord nbits w) with
  | .instr i => some i
  | .rejected _ => none

end Sys2Proof
end

