-- ==== Sys2Proof/WellFormed.lean ====
section
/-!
DEFINITION. What is well formed: the flag parameters (R69), an emitted command frame (R76, R79), a code and an
instruction.
-/

namespace Sys2Proof

/-- A byte with exactly one bit set. -/
def oneBit (b : Byte) : Bool := b != 0 && b &&& (b - 1) == 0

/-- R69: the five flags are each a single bit of a byte and are pairwise different. -/
def flagsWellFormed (dirsetup accel pwmfreq ready enable : Byte) : Bool :=
  [dirsetup, accel, pwmfreq, ready, enable].all oneBit
    && decide [dirsetup, accel, pwmfreq, ready, enable].Nodup

/-- The `io` byte of a command frame keeps bits 7 and 6 at 0 (R70). -/
def ioWellFormed (io : Byte) : Bool := io &&& 0xC0 == 0

/-- A frame the block may emit: its control byte is no reserved one, and the fields its kind does not carry
are zero (R76, R79). -/
def CommandFrame.wellFormed (c : CommandFrame) : Bool :=
  match kindOf c.control with
  | some .run => ioWellFormed c.io
  | some .dirsetup => c.io == 0 && c.pwm == Channels.all 0 && c.vel == Axes.all 0
  | some .accel => c.io == 0 && c.pwm == Channels.all 0 && c.vel == Axes.all 0
  | some .pwmfreq => c.io == 0 && c.pos == Axes.all 0 && c.vel == Axes.all 0
  | some .idle => c.io == 0 && c.pwm == Channels.all 0 && c.pos == Axes.all 0 && c.vel == Axes.all 0
  | none => false

/-- A code the decoder may accept: a datagram of 39 bytes with a control byte that is no reserved one, a
datagram of 26 bytes, or a select code other than 00 (R79, R80, R82). -/
def Code.wellFormed (c : Code) : Bool :=
  match c with
  | .datagram b =>
    (b.length == Config.cmdWireLen && (kindOf (b.headD 0)).isSome) || b.length == Config.fbLen
  | .select op => op != 0

/-- Every term of `Instr` is well formed: the operands' types hold no value the spec calls illegal (no
26-byte feedback datagram is illegal, R80). -/
def Instr.wellFormed (i : Instr) : Bool :=
  match i with
  | .cmdRun _ => true
  | .cmdDirsetup _ => true
  | .cmdAccel _ => true
  | .cmdPwmfreq _ => true
  | .cmdIdle _ => true
  | .fb _ => true
  | .init => true
  | .cycle => true
  | .shutdown => true

end Sys2Proof
end

