-- ==== Sys2Proof/Machine/State.lean ====
section
/-!
DEFINITION. The machine's state as plain data (R18, R33 to R35, R45, R58), its faults and refusals, and the state
after reset (R30, R40, R41).
-/

namespace Sys2Proof.Machine

/-- Transport state (R30). -/
inductive TState where
  | closed
  | opened
deriving DecidableEq, Repr

/-- The phase of the current CYCLE (R31). -/
inductive Phase where
  | idle
  | sample
  | build
  | send
  | recv
  | update
deriving DecidableEq, Repr

/-- `lastOutcome`, a model-only diagnostic (R38, R137; log 21). -/
inductive LastOutcome where
  | none
  | ok
  | sendFail
  | recvTimeout
  | sizeMismatch
deriving DecidableEq, Repr

/-- The endpoint passed to INIT, an address and a port (R10, R30). -/
structure Endpoint where
  address : Nat
  port : Nat
deriving DecidableEq, Repr

/-- The host inputs (R33, R34). -/
structure HostInputs where
  enable : Bool
  positionCommand : Axes Config.Real
  velocityCommand : Axes Config.Real
  dout : Channels Bool
  duty : Channels Config.Real
  scale : Axes Config.Real
  dirSetup : Axes (BitVec Config.dirSetupWidth)
  accel : Axes Config.Real
  pwmFrequency : Channels (BitVec Config.pwmFreqWidth)
deriving DecidableEq, Repr

/-- The transport's answer to Acquire (R131). -/
inductive AcquireAnswer where
  | ok
  | fail
deriving DecidableEq, Repr

/-- The transport's answer to Send (R55). -/
inductive SendAnswer where
  | ok
  | fail
deriving DecidableEq, Repr

/-- How the transport answers Recv: with the oldest queued datagram (a timeout if none is queued), or with a
timeout or another receive error (R56). -/
inductive RecvDraw where
  | deliver
  | timeout
deriving DecidableEq, Repr

/-- The result of Recv (R56). -/
inductive RecvAnswer where
  | datagram (bytes : List Byte)
  | timeout
deriving DecidableEq, Repr

/-- What the last INIT returned (R130, R131; log 20). -/
inductive InitAnswer where
  | none
  | initOk
  | initFailed
deriving DecidableEq, Repr

/-- One invocation at the host interface, with the transport's answers to it: a program line of R83 (log 2,
log 3). `arrivals` are the datagrams that reach the receive queue before the operation's Recv. -/
structure Invocation where
  op : BitVec 2
  endpoint : Endpoint
  tSend : Nat
  tRecv : Nat
  inputs : HostInputs
  acquire : AcquireAnswer
  send : SendAnswer
  recv : RecvDraw
  arrivals : List (List Byte)
deriving DecidableEq, Repr

/-- A datagram offered to the transport, with its destination and the transport's answer (R55; log 22). -/
structure Offer where
  dest : Endpoint
  bytes : List Byte
  answer : SendAnswer
deriving DecidableEq, Repr

/-- Everything the spec gives the machine (R18), its frame buffers (R45), and the environment its rules read
or write. -/
structure State where
  /-- R20. -/
  ready : Bool
  /-- R21. -/
  lostPackets : BitVec Config.lossWidth
  /-- R22. -/
  cmdLatch : CommandFrame
  /-- R24. -/
  fbLatch : FeedbackFrame
  /-- R27. -/
  positionFeedback : Axes Config.Real
  /-- R27. -/
  velocityFeedback : Axes Config.Real
  /-- R28. -/
  din : Octet Bool
  /-- R30. -/
  tstate : TState
  /-- R30. -/
  cfgEndpoint : Endpoint
  /-- R30. -/
  cfgTSend : Nat
  /-- R30. -/
  cfgTRecv : Nat
  /-- R31. -/
  phase : Phase
  /-- `in`, the input sample (R35). -/
  inp : HostInputs
  /-- R38. -/
  lastOutcome : LastOutcome
  /-- TXBUF (R46). -/
  txbuf : List Byte
  /-- RXBUF (R49). -/
  rxbuf : List Byte
  /-- The host interface during the current invocation (R33, R34, R82, R130). -/
  port : Invocation
  /-- The transport's receive queue, oldest first (R58). -/
  queue : List (List Byte)
  /-- The datagrams offered to the transport, oldest first (R55, R152). -/
  sent : List Offer
  /-- The invocations still to come (R83; log 2). -/
  calls : List Invocation
  /-- The result of the last INIT (R130). -/
  initAnswer : InitAnswer
  /-- The model's own counter of free values (log 9). -/
  draws : Nat
deriving DecidableEq, Repr

/-- The two faults of the model (R143). -/
inductive Fault where
  /-- Raised by CYCLE while `tstate` is CLOSED (R95). Safe: the model stops where the source describes nothing. -/
  | cycleWhileClosed
  /-- Raised by INIT while `tstate` is OPEN (R133). Safe: the model stops where the source describes nothing. -/
  | initWhileOpen
deriving DecidableEq, Repr

/-- Why the model refuses a step. -/
inductive Refusal where
  /-- Raised by `exec` for an instruction that has no meaning yet; no arm answers with it now. Safe. -/
  | notModelled (mnemonic : String)
  /-- Raised by `step` for the operation-select code 00, which selects nothing (R82, I14). Safe: the spec
  refuses it. -/
  | opSelectNone
deriving DecidableEq, Repr

/-- What the machine does next: run an instruction in a state, pass to a state without running one, or refuse. -/
inductive Fetched where
  | run (i : Instr) (s : State)
  | advance (s : State)
  | refuse (r : Refusal)
deriving DecidableEq, Repr

/-- Host inputs that are all zero. DESIGN CHOICE: the spec gives the inputs and `in` no value (log 7, log 8). -/
def HostInputs.zero : HostInputs where
  enable := false
  positionCommand := Axes.all 0
  velocityCommand := Axes.all 0
  dout := Channels.all false
  duty := Channels.all 0
  scale := Axes.all 0
  dirSetup := Axes.all 0
  accel := Axes.all 0
  pwmFrequency := Channels.all 0

/-- The host interface at reset: nothing selected, nothing arrived. DESIGN CHOICE (log 8). -/
def Invocation.none : Invocation where
  op := 0
  endpoint := ⟨0, 0⟩
  tSend := 0
  tRecv := 0
  inputs := HostInputs.zero
  acquire := .ok
  send := .ok
  recv := .deliver
  arrivals := []

/-- The machine right after reset, before the first INIT (R30, R40): the transport CLOSED, the phase IDLE. Every
other element of R18 already holds its reset value, the one that R41 gives it after INIT (DESIGN CHOICE, log 1). The
rest are named in log 5 (`cfg*`), log 6 (frame buffers), log 7 (`in`), log 8 (host interface, receive queue), log 2
(`calls`), log 20 (`initAnswer`), log 22 (`sent`) and log 9 (`draws`). -/
def State.reset : State where
  ready := false
  lostPackets := 0
  cmdLatch := CommandFrame.zero
  fbLatch := FeedbackFrame.zero
  positionFeedback := Axes.all 0
  velocityFeedback := Axes.all 0
  din := Octet.all false
  tstate := .closed
  cfgEndpoint := ⟨0, 0⟩
  cfgTSend := 0
  cfgTRecv := 0
  phase := .idle
  inp := HostInputs.zero
  lastOutcome := .none
  txbuf := List.replicate Config.cmdWireLen 0
  rxbuf := []
  port := Invocation.none
  queue := []
  sent := []
  calls := []
  initAnswer := .none
  draws := 0

end Sys2Proof.Machine
end

