-- ==== Sys2Proof/Machine/Flags.lean ====
section
/-!
DEFINITION. The control flags (R36), the handshake stage and the frame kind they select (R98, R99), the class of
a cycle (R124) and the outcome codes (R137).
-/

namespace Sys2Proof.Machine

/-- Whether the flag `flag` is set in the control byte `c`. -/
def hasFlag (c flag : Byte) : Bool := c &&& flag != 0

/-- `stageOf(c)`, in strict priority order (R99). -/
def stageOf (c : Byte) : HandshakeStage :=
  if hasFlag c Config.flagDirsetup = false then .sendDirsetup
  else if hasFlag c Config.flagAccel = false then .sendAccel
  else if hasFlag c Config.flagPwmfreq = false then .sendPwmFreq
  else .operational

/-- The frame kind a stage sends (R78, R93). -/
def stageKind (g : HandshakeStage) : FrameKind :=
  match g with
  | .sendDirsetup => .dirsetup
  | .sendAccel => .accel
  | .sendPwmFreq => .pwmfreq
  | .operational => .idle

/-- The frame kind of a cycle: CMD_RUN while ready, else the kind of the stage (R98). -/
def frameKind (ready : Bool) (fbControl : Byte) : FrameKind :=
  if ready then .run else stageKind (stageOf fbControl)

/-- The class of a cycle (R124); it names the cycle and selects nothing. -/
inductive CycleClass where
  | disabled
  | configuring
  | operational
deriving DecidableEq, Repr

/-- The class as a function of `in.enable` and `r` (R124). -/
def cycleClass (enable r : Bool) : CycleClass :=
  if enable then (if r then .operational else .configuring) else .disabled

/-- The code of an outcome; NONE has none (R137). -/
def outcomeCode (o : LastOutcome) : Option Nat :=
  match o with
  | .none => none
  | .ok => some 0
  | .sendFail => some 1
  | .recvTimeout => some 2
  | .sizeMismatch => some 3

end Sys2Proof.Machine
end

