-- ==== Sys2Proof/Machine/Ieee.lean ====
section
/-!
DEFINITION. IEEE-754 arithmetic (R13), computed exactly over the integers and rounded once (log 19).
-/

namespace Sys2Proof.Machine

/-- A floating-point datum: a NaN (whose payload no rule reads), an infinity, or `(-1)^neg * m * 2^e`, where
`m = 0` is a signed zero. -/
inductive Datum where
  | nan
  | inf (neg : Bool)
  | fin (neg : Bool) (m : Nat) (e : Int)
deriving DecidableEq, Repr

/-- `2^e` as a natural number, for the exponents that are not negative. -/
def pow2 (e : Int) : Nat := 2 ^ e.toNat

/-- `d * 2^l ≤ n`. -/
def scaledLe (d n : Nat) (l : Int) : Bool := decide (d * pow2 l ≤ n * pow2 (-l))

/-- The integer part of `log2 (n / d)`, for positive `n` and `d`. -/
def floorLog2 (n d : Nat) : Int :=
  let l : Int := (n.log2 : Int) - (d.log2 : Int)
  if scaledLe d n l then l else l - 1

/-- `n / d` rounded to the nearest integer, ties to even. -/
def roundHalfEven (n d : Nat) : Nat :=
  let q := n / d
  let r := n % d
  if 2 * r < d then q else if d < 2 * r then q + 1 else q + q % 2

/-- The magnitude bits (all but the sign) of `n / d * 2^e` rounded to nearest, ties to even, in the format with
`frac` fraction bits, smallest quantum `2^qmin` and infinity pattern `infMag`; overflow gives infinity (R13). -/
def magBits (frac : Nat) (qmin : Int) (infMag n d : Nat) (e : Int) : Nat :=
  if n = 0 then 0
  else
    let q := max (floorLog2 n d + e - frac) qmin
    let r := roundHalfEven (n * pow2 (e - q)) (d * pow2 (q - e))
    min ((q - qmin).toNat * 2 ^ frac + r) infMag

/-- binary64: the infinity pattern without its sign. -/
def infMag64 : Nat := 2047 * 2 ^ 52

/-- binary32: the infinity pattern without its sign. -/
def infMag32 : Nat := 255 * 2 ^ 23

/-- binary64 magnitude bits of `n / d * 2^e`. -/
def mag64 (n d : Nat) (e : Int) : Nat := magBits 52 (-1074) infMag64 n d e

/-- binary32 magnitude bits of `m * 2^e`. -/
def mag32 (m : Nat) (e : Int) : Nat := magBits 23 (-149) infMag32 m 1 e

/-- A binary64 pattern from sign and magnitude bits. -/
def pack64 (neg : Bool) (mag : Nat) : F64 := BitVec.ofNat 64 (mag + if neg then 2 ^ 63 else 0)

/-- A binary32 pattern from sign and magnitude bits (R74). -/
def pack32 (neg : Bool) (mag : Nat) : F32 := BitVec.ofNat 32 (mag + if neg then 2 ^ 31 else 0)

/-- The datum of sign, biased exponent and fraction, in the format with `frac` fraction bits, top exponent `top`
and smallest quantum `2^qmin`. -/
def datumOf (frac top : Nat) (qmin : Int) (neg : Bool) (ex fr : Nat) : Datum :=
  if ex = top then (if fr = 0 then .inf neg else .nan)
  else if ex = 0 then .fin neg fr qmin
  else .fin neg (2 ^ frac + fr) (qmin + ex - 1)

/-- The datum of a binary64 pattern. -/
def Datum.ofBits64 (b : F64) : Datum :=
  datumOf 52 2047 (-1074) (b.getLsbD 63) (b.toNat / 2 ^ 52 % 2048) (b.toNat % 2 ^ 52)

/-- `f64(v)` of an f32, exact (R13, R74). -/
def Datum.ofBits32 (b : F32) : Datum :=
  datumOf 23 255 (-149) (b.getLsbD 31) (b.toNat / 2 ^ 23 % 256) (b.toNat % 2 ^ 23)

/-- `f64(v)` of an i32, exact (R13). -/
def Datum.ofI32 (v : I32) : Datum := .fin (decide (v.toInt < 0)) v.toInt.natAbs 0

/-- A natural number as a datum. -/
def Datum.ofNat (n : Nat) : Datum := .fin false n 0

/-- `a *f64 b` (R13). -/
def mulF64 (a b : Datum) : Datum :=
  match a, b with
  | .nan, _ => .nan
  | _, .nan => .nan
  | .inf s, .inf t => .inf (s ^^ t)
  | .inf s, .fin t m _ => if m = 0 then .nan else .inf (s ^^ t)
  | .fin s m _, .inf t => if m = 0 then .nan else .inf (s ^^ t)
  | .fin s m e, .fin t n f => Datum.ofBits64 (pack64 (s ^^ t) (mag64 (m * n) 1 (e + f)))

/-- `a /f64 b` (R13): `x / 0` is an infinity for `x ≠ 0` and NaN for a zero. -/
def divF64 (a b : Datum) : Datum :=
  match a, b with
  | .nan, _ => .nan
  | _, .nan => .nan
  | .inf _, .inf _ => .nan
  | .inf s, .fin t _ _ => .inf (s ^^ t)
  | .fin s _ _, .inf t => .fin (s ^^ t) 0 0
  | .fin s m e, .fin t n f =>
    if n = 0 then (if m = 0 then .nan else .inf (s ^^ t))
    else Datum.ofBits64 (pack64 (s ^^ t) (mag64 m n (e - f)))

/-- The NaN pattern of binary64 that a free word selects: every NaN pattern is selected by some word (I7). -/
def nanBits64 (free : BitVec 64) : F64 :=
  pack64 (free.getLsbD 63) (infMag64 + max 1 (free.toNat % 2 ^ 52))

/-- The NaN pattern of binary32 that a free word selects: every NaN pattern is selected by some word (I2). -/
def nanBits32 (free : BitVec 32) : F32 :=
  pack32 (free.getLsbD 31) (infMag32 + max 1 (free.toNat % 2 ^ 23))

/-- The binary64 pattern of a datum; a NaN's pattern is the one `free` selects (R118). -/
def bits64 (free : BitVec 64) (x : Datum) : F64 :=
  match x with
  | .nan => nanBits64 free
  | .inf s => pack64 s infMag64
  | .fin s m e => pack64 s (mag64 m 1 e)

/-- `f32rne(x)` (R13); a NaN's pattern is the one `free` selects (R108). -/
def f32rne (free : BitVec 32) (x : Datum) : F32 :=
  match x with
  | .nan => nanBits32 free
  | .inf s => pack32 s infMag32
  | .fin s m e => pack32 s (mag32 m e)

/-- `m * 2^e` rounded toward zero. -/
def truncMag (m : Nat) (e : Int) : Nat := m * pow2 e / pow2 (-e)

/-- `trunc(x)` of `(-1)^neg * m * 2^e` (R13). -/
def truncFin (neg : Bool) (m : Nat) (e : Int) : Int :=
  if neg then -(truncMag m e : Int) else (truncMag m e : Int)

/-- `n < m * 2^e`. -/
def natLtMag (n m : Nat) (e : Int) : Bool := decide (n * pow2 (-e) < m * pow2 e)

/-- `n ≤ m * 2^e`. -/
def natLeMag (n m : Nat) (e : Int) : Bool := decide (n * pow2 (-e) ≤ m * pow2 e)

end Sys2Proof.Machine
end

