-- ==== Sys2Proof/Machine/Operands.lean ====
section
/-!
DEFINITION. The operand conversions (R106 to R111, R118): from the sampled inputs to frame fields, and from an
accepted feedback frame to the outputs. `free` is the free value of a case the source does not fix.
-/

namespace Sys2Proof.Machine

/-- `packIo(dout)`: output `k` is bit `k`, bits 7 and 6 are 0 (R70, R106). -/
def packIo (d : Channels Bool) : Byte :=
  BitVec.ofNat 8
    (d.c0.toNat + 2 * d.c1.toNat + 4 * d.c2.toNat + 8 * d.c3.toNat + 16 * d.c4.toNat + 32 * d.c5.toNat)

/-- The eight digital inputs of a feedback `io` byte: input `k` is bit `k` (R71, R117). -/
def unpackIo (io : Byte) : Octet Bool := Octet.ofFn fun k => io.getLsbD k.val

/-- `cvtI32(x)`: truncation toward zero where the result is an i32, else the free value (R107; log 10). -/
def cvtI32 (free : BitVec 32) (x : Datum) : I32 :=
  match x with
  | .nan => free
  | .inf _ => free
  | .fin neg m e =>
    let t := truncFin neg m e
    if -(2 ^ 31) ≤ t ∧ t ≤ 2 ^ 31 - 1 then BitVec.ofInt 32 t else free

/-- `cvtVel(x) = f32rne(x)` (R108; log 12). -/
def cvtVel (free : BitVec 32) (x : Datum) : F32 := f32rne free x

/-- `cvtPwm` from the binary64 product `t` on: clamp above, free at or below −1 and for NaN, else truncate
(R109; log 11). -/
def narrowPwm (free : BitVec 16) (t : Datum) : U16 :=
  match t with
  | .nan => free
  | .inf true => free
  | .inf false => BitVec.ofNat 16 Config.pwmMax
  | .fin false m e =>
    if natLtMag Config.pwmMax m e then BitVec.ofNat 16 Config.pwmMax else BitVec.ofNat 16 (truncMag m e)
  | .fin true m e => if natLeMag 1 m e then free else BitVec.ofNat 16 (truncMag m e)

/-- `cvtPwm(d)`: `d * 1023` in binary64, then narrowed (R109). -/
def cvtPwm (free : BitVec 16) (d : Config.Real) : U16 :=
  narrowPwm free (mulF64 (Datum.ofBits64 d) (Datum.ofNat Config.pwmMax))

/-- `cvtDir(v)`: the low 32 bits (R110). -/
def cvtDir (v : BitVec Config.dirSetupWidth) : I32 := v.setWidth 32

/-- `cvtFreq(v)`: the low 16 bits (R111). -/
def cvtFreq (v : BitVec Config.pwmFreqWidth) : U16 := v.setWidth 16

/-- `x *f64 scale` of two binary64 patterns (R101, R103). -/
def scaled (x scale : Config.Real) : Datum := mulF64 (Datum.ofBits64 x) (Datum.ofBits64 scale)

/-- `f64(d.pos[i]) /f64 scale` as an output pattern (R118; log 13). -/
def posFeedback (free : BitVec 64) (pos : I32) (scale : Config.Real) : Config.Real :=
  bits64 free (divF64 (Datum.ofI32 pos) (Datum.ofBits64 scale))

/-- `f64(d.vel[i]) /f64 scale` as an output pattern (R118; log 13). -/
def velFeedback (free : BitVec 64) (vel : F32) (scale : Config.Real) : Config.Real :=
  bits64 free (divF64 (Datum.ofBits32 vel) (Datum.ofBits64 scale))

end Sys2Proof.Machine
end

