-- ==== Sys2Proof/Machine/Ops.lean ====
section
/-!
DEFINITION. The named operations over the state: the host interface and the transport primitives (R55, R56), the
phases that run no instruction (R96, R112 to R116), and the one way an error ends a cycle (R141). The block
takes no trap (R145), so there is no exception entry and no return from one.
-/

namespace Sys2Proof.Machine

/-- The host and the transport present the next invocation: its signals and answers stand at the port and its
arrivals are queued (R19, R58; log 2, log 3). -/
def State.present (s : State) (c : Invocation) (rest : List Invocation) : State :=
  { s with port := c, queue := s.queue ++ c.arrivals, calls := rest }

/-- The block passes to phase `p` (R31). -/
def State.enter (s : State) (p : Phase) : State := { s with phase := p }

/-- BUILD's result: `cmdLatch` written whole (R23), one draw used, phase SEND next. -/
def State.latchCmd (s : State) (c : CommandFrame) : State :=
  { s with cmdLatch := c, draws := s.draws + 1, phase := .send }

/-- `Send(b)`: offers `b` to the transport, addressed to `cfgEndpoint` (R55). -/
def State.offer (s : State) (b : List Byte) : State :=
  { s with sent := s.sent ++ [⟨s.cfgEndpoint, b, s.port.send⟩] }

/-- The answer of `Recv()` (R56). -/
def State.recvAnswer (s : State) : RecvAnswer :=
  match s.port.recv with
  | .timeout => .timeout
  | .deliver =>
    match s.queue with
    | [] => .timeout
    | d :: _ => .datagram d

/-- The transport's queue after `Recv()`: a returned datagram is removed from it (R56, R57). -/
def State.recvTake (s : State) : State :=
  match s.port.recv with
  | .timeout => s
  | .deliver => { s with queue := s.queue.drop 1 }

/-- An error ends the cycle: `ready` is cleared, the loss count keeps its increment (R114, R116, R141). -/
def State.failCycle (s : State) (o : LastOutcome) : State :=
  { s with ready := false, lastOutcome := o, phase := .idle }

/-- SAMPLE (R96). -/
def State.sampleInputs (s : State) : State := { s with inp := s.port.inputs, phase := .build }

/-- SEND up to the loss count: TXBUF written, one datagram offered, the count up by one whatever the answer
(R112, R113). -/
def State.transmit (s : State) : State :=
  { s.offer (encodeCmd s.cmdLatch) with
    txbuf := encodeCmd s.cmdLatch
    lostPackets := s.lostPackets + 1 }

/-- SEND (R112 to R114). -/
def State.sendPhase (s : State) : State :=
  match s.port.send with
  | .fail => s.transmit.failCycle .sendFail
  | .ok => s.transmit.enter .recv

/-- RECV: one Recv, then the size check of DECODE_FB (R115, R116). -/
def State.recvPhase (s : State) : State :=
  match s.recvAnswer with
  | .timeout => s.recvTake.failCycle .recvTimeout
  | .datagram b =>
    let t := { s.recvTake with rxbuf := b }
    match decodeFb b with
    | .sizeMismatch => t.failCycle .sizeMismatch
    | .ok _ => t.enter .update

end Sys2Proof.Machine
end

