-- ==== Sys2Proof/Machine/Command.lean ====
section
/-!
DEFINITION. The five command frame kinds: what BUILD writes into `cmdLatch` for each (R100 to R105), and the
meanings of CMD_RUN, CMD_DIRSETUP, CMD_ACCEL, CMD_PWMFREQ and CMD_IDLE. Free values: position and acceleration
at sites 0 to 2, velocity at sites 3 to 5, PWM at sites 0 to 5 of the 16-bit draws (log 9).
-/

namespace Sys2Proof.Machine

/-- The frame of `BUILD_RUN(ebit)` (R100, R101). -/
def runFrame (draw : Nat) (e : Bool) (x : HostInputs) : CommandFrame where
  control := Config.flagReady ||| enableBit e
  io := packIo x.dout
  pwm := Channels.ofFn fun j => cvtPwm (Config.free16 draw j.val) (x.duty.get j)
  pos := Axes.ofFn fun i =>
    cvtI32 (Config.free32 draw i.val) (scaled (x.positionCommand.get i) (x.scale.get i))
  vel := Axes.ofFn fun i =>
    cvtVel (Config.free32 draw (3 + i.val)) (scaled (x.velocityCommand.get i) (x.scale.get i))

/-- The frame of `BUILD_DIRSETUP(ebit)` (R100, R102). -/
def dirsetupFrame (e : Bool) (x : HostInputs) : CommandFrame :=
  { CommandFrame.zero with
    control := Config.flagDirsetup ||| enableBit e
    pos := Axes.ofFn fun i => cvtDir (x.dirSetup.get i) }

/-- The frame of `BUILD_ACCEL(ebit)` (R100, R103). -/
def accelFrame (draw : Nat) (e : Bool) (x : HostInputs) : CommandFrame :=
  { CommandFrame.zero with
    control := Config.flagAccel ||| enableBit e
    pos := Axes.ofFn fun i => cvtI32 (Config.free32 draw i.val) (scaled (x.accel.get i) (x.scale.get i)) }

/-- The frame of `BUILD_PWMFREQ(ebit)` (R100, R104). -/
def pwmfreqFrame (e : Bool) (x : HostInputs) : CommandFrame :=
  { CommandFrame.zero with
    control := Config.flagPwmfreq ||| enableBit e
    pwm := Channels.ofFn fun j => cvtFreq (x.pwmFrequency.get j) }

/-- The frame of `BUILD_IDLE(ebit)` (R100, R105). -/
def idleFrame (e : Bool) : CommandFrame := { CommandFrame.zero with control := enableBit e }

/-- `BUILD_RUN` on the state (R101). -/
def buildRun (e : Bool) (s : State) : State := s.latchCmd (runFrame s.draws e s.inp)

/-- `BUILD_DIRSETUP` on the state (R102). -/
def buildDirsetup (e : Bool) (s : State) : State := s.latchCmd (dirsetupFrame e s.inp)

/-- `BUILD_ACCEL` on the state (R103). -/
def buildAccel (e : Bool) (s : State) : State := s.latchCmd (accelFrame s.draws e s.inp)

/-- `BUILD_PWMFREQ` on the state (R104). -/
def buildPwmfreq (e : Bool) (s : State) : State := s.latchCmd (pwmfreqFrame e s.inp)

/-- `BUILD_IDLE` on the state (R105). -/
def buildIdle (e : Bool) (s : State) : State := s.latchCmd (idleFrame e)

/-- BUILD of the kind `k` (R93). -/
def buildKind (k : FrameKind) (e : Bool) (s : State) : State :=
  match k with
  | .run => buildRun e s
  | .dirsetup => buildDirsetup e s
  | .accel => buildAccel e s
  | .pwmfreq => buildPwmfreq e s
  | .idle => buildIdle e s

/-- CMD_RUN (R101). -/
def execCmdRun (e : Bool) (s : State) : Host.Outcome State Fault Refusal := .next (buildRun e s)

/-- CMD_DIRSETUP (R102). -/
def execCmdDirsetup (e : Bool) (s : State) : Host.Outcome State Fault Refusal := .next (buildDirsetup e s)

/-- CMD_ACCEL (R103). -/
def execCmdAccel (e : Bool) (s : State) : Host.Outcome State Fault Refusal := .next (buildAccel e s)

/-- CMD_PWMFREQ (R104). -/
def execCmdPwmfreq (e : Bool) (s : State) : Host.Outcome State Fault Refusal := .next (buildPwmfreq e s)

/-- CMD_IDLE (R105). -/
def execCmdIdle (e : Bool) (s : State) : Host.Outcome State Fault Refusal := .next (buildIdle e s)

end Sys2Proof.Machine
end

