-- ==== Sys2Proof/Machine/Feedback.lean ====
section
/-!
DEFINITION. FB: what an accepted feedback frame does (R117 to R120). Free values: positions at sites 0 to 2,
velocities at sites 3 to 5 of the 64-bit draws (log 9).
-/

namespace Sys2Proof.Machine

/-- `positionFeedback` after an accepted frame (R118). -/
def positionOutputs (draw : Nat) (f : FeedbackFrame) (scale : Axes Config.Real) : Axes Config.Real :=
  Axes.ofFn fun i => posFeedback (Config.free64 draw i.val) (f.pos.get i) (scale.get i)

/-- `velocityFeedback` after an accepted frame (R118). -/
def velocityOutputs (draw : Nat) (f : FeedbackFrame) (scale : Axes Config.Real) : Axes Config.Real :=
  Axes.ofFn fun i => velFeedback (Config.free64 draw (3 + i.val)) (f.vel.get i) (scale.get i)

/-- UPDATE with the decoded frame `f` (R117 to R120). -/
def State.acceptFb (s : State) (f : FeedbackFrame) : State :=
  { s with
    fbLatch := f
    din := unpackIo f.io
    positionFeedback := positionOutputs s.draws f s.inp.scale
    velocityFeedback := velocityOutputs s.draws f s.inp.scale
    ready := hasFlag f.control Config.flagReady
    lostPackets := s.lostPackets - 1
    lastOutcome := .ok
    phase := .idle
    draws := s.draws + 1 }

/-- UPDATE from RXBUF: DECODE_FB, then the update; a wrong length is a receive failure (R88, R116, R117). -/
def State.updatePhase (s : State) : State :=
  match decodeFb s.rxbuf with
  | .ok f => s.acceptFb f
  | .sizeMismatch => s.failCycle .sizeMismatch

/-- FB (R78, R117 to R120). -/
def execFb (f : FeedbackFrame) (s : State) : Host.Outcome State Fault Refusal := .next (s.acceptFb f)

end Sys2Proof.Machine
end

