-- ==== Sys2Proof/Machine/Cycle.lean ====
section
/-!
DEFINITION. CYCLE: one protocol cycle as one step (R93, R94), made of the same phases that Machine/Fetch.lean runs
one at a time.
-/

namespace Sys2Proof.Machine

/-- BUILD: the kind that `ready` and the last accepted feedback select, with ENABLE from the sample (R97, R98). -/
def State.buildPhase (s : State) : State :=
  buildKind (frameKind s.ready s.fbLatch.control) s.inp.enable s

/-- RECV and UPDATE, after a Send that did not fail (R115 to R120). -/
def State.receive (s : State) : State :=
  let t := s.recvPhase
  match t.phase with
  | .update => t.updatePhase
  | _ => t

/-- SEND and, unless it failed, what follows it (R112 to R120). -/
def State.exchange (s : State) : State :=
  let t := s.sendPhase
  match t.phase with
  | .recv => t.receive
  | _ => t

/-- The phases of a cycle in order (R31, R93). -/
def State.cycleBody (s : State) : State := s.sampleInputs.buildPhase.exchange

/-- CYCLE (R93, R95). -/
def execCycle (s : State) : Host.Outcome State Fault Refusal :=
  match s.tstate with
  | .closed => .fault .cycleWhileClosed
  | .opened => .next s.cycleBody

end Sys2Proof.Machine
end

