-- ==== Sys2Proof/Machine/Lifecycle.lean ====
section
/-!
DEFINITION. INIT and SHUTDOWN (R130 to R135).
-/

namespace Sys2Proof.Machine

/-- What a successful Acquire leads to, up to the discard-read: the configuration captured, every element at its
value of R41, the transport open (R130). `in` and the frame buffers are not written (log 6, log 7). -/
def State.initialise (s : State) : State :=
  { s with
    cfgEndpoint := s.port.endpoint
    cfgTSend := s.port.tSend
    cfgTRecv := s.port.tRecv
    ready := false
    lostPackets := 0
    cmdLatch := CommandFrame.zero
    fbLatch := FeedbackFrame.zero
    positionFeedback := Axes.all 0
    velocityFeedback := Axes.all 0
    din := Octet.all false
    lastOutcome := .none
    phase := .idle
    tstate := .opened
    initAnswer := .initOk }

/-- INIT (R130 to R133): a fault while open, InitFailed when Acquire fails, else the reset and one discard-read
whose answer changes nothing but the transport's queue. -/
def execInit (s : State) : Host.Outcome State Fault Refusal :=
  match s.tstate with
  | .opened => .fault .initWhileOpen
  | .closed =>
    match s.port.acquire with
    | .fail => .next { s with initAnswer := .initFailed }
    | .ok => .next s.initialise.recvTake

/-- A free command frame (log 14). -/
def freeCmd (draw : Nat) : CommandFrame where
  control := Config.freeByte draw 0
  io := Config.freeByte draw 1
  pwm := Channels.ofFn fun j => Config.free16 draw j.val
  pos := Axes.ofFn fun i => Config.free32 draw i.val
  vel := Axes.ofFn fun i => Config.free32 draw (3 + i.val)

/-- A free feedback frame (log 14). -/
def freeFb (draw : Nat) : FeedbackFrame where
  control := Config.freeByte draw 2
  io := Config.freeByte draw 3
  pos := Axes.ofFn fun i => Config.free32 draw (6 + i.val)
  vel := Axes.ofFn fun i => Config.free32 draw (9 + i.val)

/-- A free input sample (log 14). -/
def freeInputs (draw : Nat) : HostInputs where
  enable := Config.freeBool draw 0
  positionCommand := Axes.ofFn fun i => Config.free64 draw i.val
  velocityCommand := Axes.ofFn fun i => Config.free64 draw (3 + i.val)
  dout := Channels.ofFn fun j => Config.freeBool draw (1 + j.val)
  duty := Channels.ofFn fun j => Config.free64 draw (6 + j.val)
  scale := Axes.ofFn fun i => Config.free64 draw (12 + i.val)
  dirSetup := Axes.ofFn fun i => (Config.free32 draw (12 + i.val)).setWidth _
  accel := Axes.ofFn fun i => Config.free64 draw (15 + i.val)
  pwmFrequency := Channels.ofFn fun j => (Config.free32 draw (15 + j.val)).setWidth _

/-- A free outcome (log 14). -/
def freeOutcome (draw : Nat) : LastOutcome :=
  match Config.freeNat draw 0 % 5 with
  | 0 => .none
  | 1 => .ok
  | 2 => .sendFail
  | 3 => .recvTimeout
  | _ => .sizeMismatch

/-- Release (R134, R150): the transport closes, and every element of R18 but `tstate` and `phase` ends its
lifetime, so that it holds a free value from now on (R43, I12; log 14). The closed transport's queue is gone
(log 4). -/
def State.release (s : State) : State :=
  { s with
    tstate := .closed
    phase := .idle
    queue := []
    ready := Config.freeBool s.draws 7
    lostPackets := (Config.free32 s.draws 21).setWidth _
    cmdLatch := freeCmd s.draws
    fbLatch := freeFb s.draws
    positionFeedback := Axes.ofFn fun i => Config.free64 s.draws (18 + i.val)
    velocityFeedback := Axes.ofFn fun i => Config.free64 s.draws (21 + i.val)
    din := Octet.ofFn fun k => Config.freeBool s.draws (8 + k.val)
    cfgEndpoint := ⟨Config.freeNat s.draws 1, Config.freeNat s.draws 2⟩
    cfgTSend := Config.freeNat s.draws 3
    cfgTRecv := Config.freeNat s.draws 4
    inp := freeInputs s.draws
    lastOutcome := freeOutcome s.draws
    draws := s.draws + 1 }

/-- SHUTDOWN (R134); while CLOSED it does nothing (R135). -/
def execShutdown (s : State) : Host.Outcome State Fault Refusal :=
  match s.tstate with
  | .closed => .next s
  | .opened => .next s.release

end Sys2Proof.Machine
end

