-- ==== Sys2Proof/Machine/Dispatch.lean ====
section
/-!
DEFINITION. One arm per instruction.
-/

namespace Sys2Proof.Machine

def exec (i : Instr) (s : State) : Host.Outcome State Fault Refusal :=
  match i with
  | .cmdRun e => Sys2Proof.Machine.execCmdRun e s
  | .cmdDirsetup e => Sys2Proof.Machine.execCmdDirsetup e s
  | .cmdAccel e => Sys2Proof.Machine.execCmdAccel e s
  | .cmdPwmfreq e => Sys2Proof.Machine.execCmdPwmfreq e s
  | .cmdIdle e => Sys2Proof.Machine.execCmdIdle e s
  | .fb frame => Sys2Proof.Machine.execFb frame s
  | .init => Sys2Proof.Machine.execInit s
  | .cycle => Sys2Proof.Machine.execCycle s
  | .shutdown => Sys2Proof.Machine.execShutdown s

end Sys2Proof.Machine
end

