-- ==== Sys2Proof/Machine/Fetch.lean ====
section
/-!
DEFINITION. What the machine runs next, and how an instruction is put there. Between operations the host interface
selects it; inside a cycle the phase does: BUILD runs the frame kind that the state selects, UPDATE runs the
feedback frame in RXBUF, the other phases run none (R31, R82, R98; log 2, log 15).
-/

namespace Sys2Proof.Machine

/-- The next instruction, or the next phase (R31, R82, R98, R153). -/
def fetch (s : State) : Fetched :=
  match s.phase with
  | .idle =>
    match s.calls with
    | [] => .advance s
    | c :: rest =>
      match decodeOp c.op with
      | some i => .run i (s.present c rest)
      | none => .refuse .opSelectNone
  | .sample => .advance s.sampleInputs
  | .build => .run (kindInstr (frameKind s.ready s.fbLatch.control) s.inp.enable) s
  | .send => .advance s.sendPhase
  | .recv => .advance s.recvPhase
  | .update =>
    match decodeFb s.rxbuf with
    | .ok f => .run (.fb f) s
    | .sizeMismatch => .advance (s.failCycle .sizeMismatch)

/-- The state in BUILD of a CYCLE, so with the transport OPEN, ready to run a kind with ENABLE bit `e`. -/
def State.placeKind (s : State) (ready : Bool) (fbControl : Byte) (e : Bool) : State :=
  { s with
    tstate := .opened
    phase := .build
    ready := ready
    fbLatch := { s.fbLatch with control := fbControl }
    inp := { s.inp with enable := e } }

/-- The state with one more invocation, of the operation `op`, before those still to come. -/
def State.placeOp (s : State) (op : BitVec 2) : State :=
  { s with phase := .idle, calls := { s.port with op := op, arrivals := [] } :: s.calls }

/-- The state whose next step runs the instruction `i` (log 2). What runs only after INIT (CYCLE, and the phases of
one) is placed with the transport OPEN. -/
def State.placeInstr (s : State) (i : Instr) : State :=
  let c := s.fbLatch.control
  match i with
  | .cmdRun e => s.placeKind true c e
  | .cmdDirsetup e => s.placeKind false (c &&& ~~~Config.flagDirsetup) e
  | .cmdAccel e => s.placeKind false ((c ||| Config.flagDirsetup) &&& ~~~Config.flagAccel) e
  | .cmdPwmfreq e =>
    s.placeKind false ((c ||| Config.flagDirsetup ||| Config.flagAccel) &&& ~~~Config.flagPwmfreq) e
  | .cmdIdle e =>
    s.placeKind false (c ||| Config.flagDirsetup ||| Config.flagAccel ||| Config.flagPwmfreq) e
  | .fb f => { s with tstate := .opened, phase := .update, rxbuf := encodeFb f }
  | .init => s.placeOp 0b01#2
  | .cycle => { s with tstate := .opened }.placeOp 0b10#2
  | .shutdown => s.placeOp 0b11#2

/-- The state whose next step reads the table word `w` of `nbits` bits; a word that is no instruction is placed
as the select code 00, which the step refuses. -/
def State.placeWord (s : State) (nbits w : Nat) : State :=
  match decodeTableWord nbits w with
  | some i => s.placeInstr i
  | none => s.placeOp 0b00#2

end Sys2Proof.Machine
end

