-- ==== Sys2Proof/Safety.lean ====
section
/-!
DEFINITION. What the claims speak of: well-formed buffers, the block's invariant (R44), and when a round trip
completes (R16, R93).
-/

namespace Sys2Proof.Machine

/-- TXBUF has exactly 39 bytes (R46). The block has no addressable memory (R45); its two frame buffers are byte
sequences (log 23). -/
def Memory.wf (s : State) : Bool := s.txbuf.length == Config.cmdWireLen

/-- R44 (a) to (d), as far as one state shows them: while the transport is open, the last command frame is one the
block may emit, and `ready` is set only beside a last accepted feedback with READY. -/
def State.Inv (s : State) : Prop :=
  Memory.wf s = true ∧
    (s.tstate = .opened →
      s.cmdLatch.wellFormed = true ∧
        (s.ready = true → hasFlag s.fbLatch.control Config.flagReady = true))

/-- The value of a finite magnitude pattern (a pattern without its sign) of the IEEE-754 format with `frac` fraction
bits and smallest quantum `2^qmin`. The infinity pattern is given the power of two above the largest finite value,
which is where the format's next value would stand (R13). -/
def magValue (frac : Nat) (qmin : Int) (p : Nat) : ℚ :=
  if p < 2 ^ frac then p * 2 ^ qmin
  else (2 ^ frac + (p % 2 ^ frac : Nat)) * 2 ^ (qmin + (p / 2 ^ frac : Nat) - 1)

/-- The magnitude pattern `p` is `x` rounded to nearest, ties to even, in the format whose infinity pattern is
`infMag`: from the midpoint above the largest finite value on it is infinity; below that it is finite, no finite
pattern's value is nearer to `x`, and where another one's is as near, `p` is the even one (R13). -/
def IsRounded (frac : Nat) (qmin : Int) (infMag : Nat) (x : ℚ) (p : Nat) : Prop :=
  if x < (magValue frac qmin (infMag - 1) + magValue frac qmin infMag) / 2 then
    p < infMag ∧ ∀ q < infMag, q ≠ p →
      |x - magValue frac qmin p| < |x - magValue frac qmin q| ∨
        (|x - magValue frac qmin p| = |x - magValue frac qmin q| ∧ p % 2 = 0)
  else p = infMag

/-- Rounding to binary64 (R13). -/
def IsRounded64 (x : ℚ) (p : Nat) : Prop := IsRounded 52 (-1074) (2047 * 2 ^ 52) x p

/-- Rounding to binary32 (R13, R74). -/
def IsRounded32 (x : ℚ) (p : Nat) : Prop := IsRounded 23 (-149) (255 * 2 ^ 23) x p

/-- The binary64 pattern `b` has the sign `neg` and the magnitude `x` rounded (R13). -/
def IsF64 (neg : Bool) (x : ℚ) (b : F64) : Prop := b.getLsbD 63 = neg ∧ IsRounded64 x (b.toNat % 2 ^ 63)

/-- The binary32 pattern `b` has the sign `neg` and the magnitude `x` rounded (R13, R74). -/
def IsF32 (neg : Bool) (x : ℚ) (b : F32) : Prop := b.getLsbD 31 = neg ∧ IsRounded32 x (b.toNat % 2 ^ 31)

/-- The receive queue after one operation's Recv, where `q` is the queue before it (R56). -/
def queueAfterRecv (d : RecvDraw) (q : List (List Byte)) : List (List Byte) :=
  match d with
  | .deliver => q.drop 1
  | .timeout => q

/-- A round trip completes: the Send is accepted and the Recv returns a datagram of 26 bytes (R16, R55, R56, R88). -/
def roundTripOk (a : SendAnswer) (d : RecvDraw) (q : List (List Byte)) : Bool :=
  match a, d, q with
  | .ok, .deliver, b :: _ => b.length == Config.fbLen
  | _, _, _ => false

/-- The round trip of a CYCLE run in the state `s` completes. -/
def State.roundTripOk (s : State) : Bool := Machine.roundTripOk s.port.send s.port.recv s.queue

/-- The command frame of kind `k` with ENABLE bit `e` from the sampled inputs `x` (R101 to R105). -/
def kindFrame (k : FrameKind) (draw : Nat) (e : Bool) (x : HostInputs) : CommandFrame :=
  match k with
  | .run => runFrame draw e x
  | .dirsetup => dirsetupFrame e x
  | .accel => accelFrame draw e x
  | .pwmfreq => pwmfreqFrame e x
  | .idle => idleFrame e

/-- The command frame a CYCLE builds in the state `s`: the kind of R98, the ENABLE bit of R97. -/
def State.cycleFrame (s : State) : CommandFrame :=
  kindFrame (frameKind s.ready s.fbLatch.control) s.draws s.port.inputs.enable s.port.inputs

/-- The queue after a CYCLE whose answers are `c`'s, from the queue `q` (R58, R114, R115). -/
def queueAfterCycle (c : Invocation) (q : List (List Byte)) : List (List Byte) :=
  match c.send with
  | .ok => queueAfterRecv c.recv (q ++ c.arrivals)
  | .fail => q ++ c.arrivals

/-- How many of the CYCLEs `cs`, run one after another from the queue `q`, do not complete their round trip. -/
def failedCycles : List (List Byte) → List Invocation → Nat
  | _, [] => 0
  | q, c :: cs =>
    (if Machine.roundTripOk c.send c.recv (q ++ c.arrivals) then 0 else 1) +
      failedCycles (queueAfterCycle c q) cs

/-- The frame kind an offered datagram carries (R77). -/
def Offer.kind (o : Offer) : Option FrameKind := kindOf (o.bytes.headD 0)

end Sys2Proof.Machine
end

