-- ==== Sys2Proof/Certificates/Slice0/Obligations.lean ====
section
/-!
DEFINITION. The statements for the provers. Each docstring names the rules of spec/ the statement formalises. A
statement that names a free value (Config.free…) holds whatever that value is.
-/

open Sys2Proof Sys2Proof.Machine

/-! ## The codec and the decoder -/

/-- Decoding the words of any well-formed instruction gives it back (R76, R77, R82, R88, R90). -/
def Obligations.DecodeOfEncode : Prop :=
  ∀ i : Instr, i.wellFormed = true → decode (encode i) = .instr i

/-- R85, R87 to R89: both frames survive the round trip in both directions, for every bit pattern. The spec states
this as R90 and marks it derived from those rules. -/
def Obligations.FrameCodecRoundTrips : Prop :=
  (∀ c : CommandFrame, decodeCmd (encodeCmd c) = .ok c) ∧
  (∀ f : FeedbackFrame, decodeFb (encodeFb f) = .ok f) ∧
  (∀ b : List Byte, b.length = 26 → ∃ f, decodeFb b = .ok f ∧ encodeFb f = b) ∧
  (∀ b : List Byte, b.length = 39 → verifyCmd b = true → ∃ c, decodeCmd b = .ok c ∧ encodeCmd c = b)

/-- R84, R85: the seed 71 folded with every payload byte and the checksum yields zero, so every encoded frame
verifies. The spec states this as R91 and marks it derived from R84. -/
def Obligations.ChecksumFoldsToZero : Prop :=
  (∀ p : List Byte, p.length = 38 → p.foldl (fun a b => a ^^^ b) (71 : Byte) ^^^ checksum p = 0) ∧
  (∀ c : CommandFrame, verifyCmd (encodeCmd c) = true)

/-- R85, R88: ENCODE_CMD is injective, and DECODE_FB is injective on 26-byte inputs. The spec states this as R92 and
marks it derived. -/
def Obligations.CodecInjective : Prop :=
  (∀ c d : CommandFrame, encodeCmd c = encodeCmd d → c = d) ∧
  (∀ a b : List Byte, a.length = 26 → b.length = 26 → decodeFb a = decodeFb b → a = b)

/-- R65: the byte map of a command datagram (byte order: the spec's default little-endian, log 18). -/
def Obligations.CommandDatagramLayout : Prop :=
  ∀ c : CommandFrame,
    (encodeCmd c).length = 39 ∧
    (encodeCmd c)[0]? = some c.control ∧
    (encodeCmd c)[1]? = some c.io ∧
    (∀ i : Fin 6, ∀ k : Fin 2,
      (encodeCmd c)[2 + 2 * i.val + k.val]? = some ((c.pwm.get i).extractLsb' (8 * k.val) 8)) ∧
    (∀ i : Fin 3, ∀ k : Fin 4,
      (encodeCmd c)[14 + 4 * i.val + k.val]? = some ((c.pos.get i).extractLsb' (8 * k.val) 8) ∧
      (encodeCmd c)[26 + 4 * i.val + k.val]? = some ((c.vel.get i).extractLsb' (8 * k.val) 8)) ∧
    (encodeCmd c)[38]? = some (checksum ((encodeCmd c).take 38))

/-- R66, R88: DECODE_FB refuses every length but 26 and reads a 26-byte datagram by the byte map (byte order:
the spec's default little-endian, log 18). -/
def Obligations.FeedbackDatagramLayout : Prop :=
  (∀ b : List Byte, b.length ≠ 26 → decodeFb b = .sizeMismatch) ∧
  (∀ b : List Byte, b.length = 26 → ∃ f, decodeFb b = .ok f ∧
    b[0]? = some f.control ∧
    b[1]? = some f.io ∧
    (∀ i : Fin 3, ∀ k : Fin 4,
      b[2 + 4 * i.val + k.val]? = some ((f.pos.get i).extractLsb' (8 * k.val) 8) ∧
      b[14 + 4 * i.val + k.val]? = some ((f.vel.get i).extractLsb' (8 * k.val) 8)))

/-- R84, R86: a datagram verifies exactly if it has 39 bytes and the last is the checksum of the others. -/
def Obligations.VerifyAcceptsExactly : Prop :=
  ∀ b : List Byte, verifyCmd b = true ↔ b.length = 39 ∧ b[38]? = some (checksum (b.take 38))

/-- R50, R84: reversing the bytes of every field leaves the checksum unchanged. The spec states this in R51 and marks
it derived. -/
def Obligations.ChecksumIgnoresByteOrder : Prop :=
  ∀ c : CommandFrame, (encodeCmdIn .big c)[38]? = (encodeCmdIn .little c)[38]?

/-- R84, R86: changing one byte by XOR with `d` changes the checksum by XOR with `d`; a 39-byte datagram that verifies
no longer does after one of its bytes, the checksum among them, is XORed with a `d` that is not 0. -/
def Obligations.SingleByteErrorDetected : Prop :=
  (∀ (p : List Byte) (k : Fin p.length) (d : Byte),
    checksum (p.set k.val (p[k] ^^^ d)) = checksum p ^^^ d) ∧
  (∀ (b : List Byte) (k : Fin b.length) (d : Byte), b.length = 39 → verifyCmd b = true → d ≠ 0 →
    verifyCmd (b.set k.val (b[k] ^^^ d)) = false)

/-- R76, R82, R88: one word of each family, written out from the encoding tables, decodes to its instruction (flags
and byte order: the spec's defaults, log 18). -/
def Obligations.SpecWordsDecode : Prop :=
  decode (.datagram ([0x81, 0] ++ List.replicate 12 0 ++ [0x64, 0, 0, 0, 0xC8, 0, 0, 0, 0xFF, 0xFF, 0xFF, 0xFF] ++
    List.replicate 12 0 ++ [0x6A])) = .instr (.cmdDirsetup true) ∧
  decode (.datagram ([0x07] ++ List.replicate 25 0)) = .instr (.fb { FeedbackFrame.zero with control := 0x07 }) ∧
  decode (.select 0b01#2) = .instr .init ∧
  decode (.select 0b10#2) = .instr .cycle ∧
  decode (.select 0b11#2) = .instr .shutdown

/-- R76: `kindOf` on every control byte. The spec states this as R77 and marks it derived from R76. The
flag bits are the spec's defaults (log 18). -/
def Obligations.ControlByteKinds : Prop :=
  ∀ c : Byte,
    (kindOf c = some .run ↔ c &&& 0x7F = 0x40) ∧
    (kindOf c = some .dirsetup ↔ c &&& 0x7F = 0x01) ∧
    (kindOf c = some .accel ↔ c &&& 0x7F = 0x02) ∧
    (kindOf c = some .pwmfreq ↔ c &&& 0x7F = 0x04) ∧
    (kindOf c = some .idle ↔ c &&& 0x7F = 0x00)

/-- R76, R79, R80, R82: what the decoder accepts and what it refuses, by length, control byte and select code
(bit 7 is ENABLE by the spec's default flags, log 18). -/
def Obligations.DecoderAcceptsAndRefuses : Prop :=
  (∀ (b : List Byte) (c : Byte), b.length = 39 → b[0]? = some c →
    (∀ k, kindOf c = some k → decode (.datagram b) = .instr (kindInstr k (c.getLsbD 7))) ∧
    (kindOf c = none → decode (.datagram b) = .rejected .reservedControl)) ∧
  (∀ b : List Byte, b.length ≠ 39 → b.length ≠ 26 → decode (.datagram b) = .rejected .badLength) ∧
  decode (.select 0b00#2) = .rejected .opSelectNone

/-! ## Conversions -/

/-- R107: an in-range datum is truncated toward zero; a NaN, an infinity or an out-of-range one gives the free
value. What `truncFin` and `truncMag` mean comes first: the integer part of the magnitude, with the sign. -/
def Obligations.CvtI32Truncates : Prop :=
  (∀ (m : Nat) (e : Int), (truncMag m e : ℚ) ≤ m * 2 ^ e ∧ (m * 2 ^ e : ℚ) < truncMag m e + 1) ∧
  (∀ m e, truncFin false m e = truncMag m e ∧ truncFin true m e = -(truncMag m e : Int)) ∧
  ∀ free : BitVec 32,
    cvtI32 free .nan = free ∧
    (∀ neg, cvtI32 free (.inf neg) = free) ∧
    (∀ neg m e, -(2 ^ 31) ≤ truncFin neg m e → truncFin neg m e ≤ 2 ^ 31 - 1 →
      (cvtI32 free (.fin neg m e)).toInt = truncFin neg m e) ∧
    (∀ neg m e, truncFin neg m e < -(2 ^ 31) ∨ 2 ^ 31 - 1 < truncFin neg m e →
      cvtI32 free (.fin neg m e) = free)

/-- R109 (W2): the duty is scaled by 1023 in binary64; the product is clamped above 1023, gives the free value for
NaN and at or below −1 (a magnitude whose integer part is at least 1), and is truncated toward zero otherwise;
duty 1.5 maps to 1023 and duty 0.0 to 0. -/
def Obligations.CvtPwmClampsAbove : Prop :=
  ∀ free : BitVec 16,
    (∀ d : F64, cvtPwm free d = narrowPwm free (mulF64 (Datum.ofBits64 d) (.fin false 1023 0))) ∧
    narrowPwm free .nan = free ∧
    narrowPwm free (.inf true) = free ∧
    (narrowPwm free (.inf false)).toNat = 1023 ∧
    (∀ m e, (narrowPwm free (.fin false m e)).toNat = min 1023 (truncMag m e)) ∧
    (∀ m e, 1 ≤ truncMag m e → narrowPwm free (.fin true m e) = free) ∧
    (∀ m e, truncMag m e = 0 → narrowPwm free (.fin true m e) = 0) ∧
    cvtPwm free 0x3FF8000000000000#64 = 1023 ∧ cvtPwm free 0x0000000000000000#64 = 0

/-- R108: a finite value that is not 0 is rounded to the nearest binary32, ties to even, from the midpoint above the
largest finite one on to an infinity; an infinity stays one, a zero keeps its sign, and a NaN gives a NaN pattern;
every NaN pattern can be drawn. -/
def Obligations.CvtVelSpecialValues : Prop :=
  (∀ free neg (m : Nat) (e : Int), 0 < m → IsF32 neg (m * 2 ^ e) (cvtVel free (.fin neg m e))) ∧
  (∀ free, cvtVel free (.inf false) = 0x7F800000#32 ∧ cvtVel free (.inf true) = 0xFF800000#32) ∧
  (∀ free e, cvtVel free (.fin false 0 e) = 0#32 ∧ cvtVel free (.fin true 0 e) = 0x80000000#32) ∧
  (∀ free, Datum.ofBits32 (cvtVel free .nan) = .nan) ∧
  (∀ p : F32, Datum.ofBits32 p = .nan → ∃ free, cvtVel free .nan = p)

/-- R13: rounding is to nearest, ties to even: of a quotient of naturals to an integer; of `n / d * 2^e` to a binary64
magnitude; of `m * 2^e` to a binary32 magnitude. A zero has the magnitude 0. -/
def Obligations.RoundHalfEvenIsNearest : Prop :=
  (∀ n d : Nat, 0 < d →
    (2 * (roundHalfEven n d * d) ≤ 2 * n + d ∧ 2 * n ≤ 2 * (roundHalfEven n d * d) + d) ∧
    (2 * (roundHalfEven n d * d) = 2 * n + d ∨ 2 * n = 2 * (roundHalfEven n d * d) + d →
      roundHalfEven n d % 2 = 0)) ∧
  (∀ (n d : Nat) (e : Int), 0 < n → 0 < d → IsRounded64 (n / d * 2 ^ e) (mag64 n d e)) ∧
  (∀ (m : Nat) (e : Int), 0 < m → IsRounded32 (m * 2 ^ e) (mag32 m e)) ∧
  (∀ d e, mag64 0 d e = 0) ∧ (∀ e, mag32 0 e = 0)

/-- R12, R13, R74: reading a binary64 pattern and packing it again gives the same pattern, for every pattern but a NaN;
the datum read from a binary64 or binary32 pattern has its sign and exactly its value, an infinity for the infinity
pattern and a NaN for every pattern above. -/
def Obligations.Binary64RoundTrips : Prop :=
  (∀ (free : BitVec 64) (b : F64), Datum.ofBits64 b ≠ .nan → bits64 free (Datum.ofBits64 b) = b) ∧
  (∀ b : F64,
    (b.toNat % 2 ^ 63 < 2047 * 2 ^ 52 → ∃ (m : Nat) (e : Int), Datum.ofBits64 b = .fin (b.getLsbD 63) m e ∧
      (m * 2 ^ e : ℚ) = magValue 52 (-1074) (b.toNat % 2 ^ 63)) ∧
    (b.toNat % 2 ^ 63 = 2047 * 2 ^ 52 → Datum.ofBits64 b = .inf (b.getLsbD 63)) ∧
    (2047 * 2 ^ 52 < b.toNat % 2 ^ 63 → Datum.ofBits64 b = .nan)) ∧
  (∀ b : F32,
    (b.toNat % 2 ^ 31 < 255 * 2 ^ 23 → ∃ (m : Nat) (e : Int), Datum.ofBits32 b = .fin (b.getLsbD 31) m e ∧
      (m * 2 ^ e : ℚ) = magValue 23 (-149) (b.toNat % 2 ^ 31)) ∧
    (b.toNat % 2 ^ 31 = 255 * 2 ^ 23 → Datum.ofBits32 b = .inf (b.getLsbD 31)) ∧
    (255 * 2 ^ 23 < b.toNat % 2 ^ 31 → Datum.ofBits32 b = .nan))

/-- R118, I7: feedback of a zero scale is an infinity of the IEEE sign for a non-zero position, and a NaN for a zero
one; the NaN pattern is the free one, and it is a NaN pattern. -/
def Obligations.ZeroScaleFeedback : Prop :=
  ∀ (free : BitVec 64) (v : I32) (scale : F64), scale = 0x0000000000000000#64 ∨ scale = 0x8000000000000000#64 →
    (v ≠ 0 → posFeedback free v scale =
      if (decide (v.toInt < 0) ^^ scale.getLsbD 63) then 0xFFF0000000000000#64 else 0x7FF0000000000000#64) ∧
    (v = 0 → posFeedback free v scale = nanBits64 free) ∧
    Datum.ofBits64 (nanBits64 free) = .nan

/-- R110, R111: `cvtDir` copies the 32-bit pattern, `cvtFreq` keeps the low 16 bits. -/
def Obligations.IntegerInputsAreCopied : Prop :=
  (∀ v : BitVec 32, (cvtDir v).toNat = v.toNat % 2 ^ 32) ∧ (∀ v : BitVec 32, (cvtFreq v).toNat = v.toNat % 2 ^ 16)

/-- R70, R71, R106: output `k` is bit `k` of the command io byte and bits 7 and 6 are 0; input `k` is bit `k` of the
feedback io byte. -/
def Obligations.IoBitsAreInOrder : Prop :=
  (∀ (d : Channels Bool) (k : Fin 6), (packIo d).getLsbD k.val = d.get k) ∧
  (∀ d : Channels Bool, (packIo d).getLsbD 6 = false ∧ (packIo d).getLsbD 7 = false) ∧
  (∀ (io : Byte) (k : Fin 8), (unpackIo io).get k = io.getLsbD k.val)

/-! ## The command frame kinds -/

/-- R101: CMD_RUN completes in every state, and what it writes. -/
def Obligations.CmdRunWritesMotion : Prop :=
  ∀ (e : Bool) (s : State), ∃ t, exec (.cmdRun e) s = .next t ∧
    t.cmdLatch.control = Config.flagReady ||| (if e then Config.flagEnable else 0) ∧
    (∀ i : Fin 3,
      t.cmdLatch.vel.get i = cvtVel (Config.free32 s.draws (3 + i.val))
        (mulF64 (Datum.ofBits64 (s.inp.velocityCommand.get i)) (Datum.ofBits64 (s.inp.scale.get i))) ∧
      t.cmdLatch.pos.get i = cvtI32 (Config.free32 s.draws i.val)
        (mulF64 (Datum.ofBits64 (s.inp.positionCommand.get i)) (Datum.ofBits64 (s.inp.scale.get i)))) ∧
    t.cmdLatch.io = packIo s.inp.dout ∧
    (∀ j : Fin 6, t.cmdLatch.pwm.get j = cvtPwm (Config.free16 s.draws j.val) (s.inp.duty.get j))

/-- R100, R102: CMD_DIRSETUP completes in every state, and what it writes. -/
def Obligations.CmdDirsetupWritesSetupTimes : Prop :=
  ∀ (e : Bool) (s : State), ∃ t, exec (.cmdDirsetup e) s = .next t ∧
    t.cmdLatch.control = Config.flagDirsetup ||| (if e then Config.flagEnable else 0) ∧
    (∀ i : Fin 3, t.cmdLatch.pos.get i = cvtDir (s.inp.dirSetup.get i)) ∧
    t.cmdLatch.io = 0 ∧
    (∀ j : Fin 6, t.cmdLatch.pwm.get j = 0) ∧
    (∀ i : Fin 3, t.cmdLatch.vel.get i = 0)

/-- R100, R103: CMD_ACCEL completes in every state, and what it writes. -/
def Obligations.CmdAccelWritesScaledLimits : Prop :=
  ∀ (e : Bool) (s : State), ∃ t, exec (.cmdAccel e) s = .next t ∧
    t.cmdLatch.control = Config.flagAccel ||| (if e then Config.flagEnable else 0) ∧
    (∀ i : Fin 3, t.cmdLatch.pos.get i = cvtI32 (Config.free32 s.draws i.val)
      (mulF64 (Datum.ofBits64 (s.inp.accel.get i)) (Datum.ofBits64 (s.inp.scale.get i)))) ∧
    t.cmdLatch.io = 0 ∧
    (∀ j : Fin 6, t.cmdLatch.pwm.get j = 0) ∧
    (∀ i : Fin 3, t.cmdLatch.vel.get i = 0)

/-- R100, R104: CMD_PWMFREQ completes in every state, and what it writes. -/
def Obligations.CmdPwmfreqWritesFrequencies : Prop :=
  ∀ (e : Bool) (s : State), ∃ t, exec (.cmdPwmfreq e) s = .next t ∧
    t.cmdLatch.control = Config.flagPwmfreq ||| (if e then Config.flagEnable else 0) ∧
    (∀ j : Fin 6, t.cmdLatch.pwm.get j = cvtFreq (s.inp.pwmFrequency.get j)) ∧
    t.cmdLatch.io = 0 ∧
    (∀ i : Fin 3, t.cmdLatch.pos.get i = 0 ∧ t.cmdLatch.vel.get i = 0)

/-- R100, R105: CMD_IDLE completes in every state, and what it writes. -/
def Obligations.CmdIdleWritesEnableOnly : Prop :=
  ∀ (e : Bool) (s : State), ∃ t, exec (.cmdIdle e) s = .next t ∧
    t.cmdLatch.control = (if e then Config.flagEnable else 0) ∧
    t.cmdLatch.io = 0 ∧
    (∀ j : Fin 6, t.cmdLatch.pwm.get j = 0) ∧
    (∀ i : Fin 3, t.cmdLatch.pos.get i = 0 ∧ t.cmdLatch.vel.get i = 0)

/-- R23, R31: CMD_RUN, CMD_DIRSETUP, CMD_ACCEL, CMD_PWMFREQ and CMD_IDLE write `cmdLatch` and pass to phase SEND;
every other element, the frame buffers and the wire stay as they are (`draws` is the model's counter). -/
def Obligations.CommandKindsFrame : Prop :=
  ∀ (i : Instr) (e : Bool) (s t : State),
    i ∈ [Instr.cmdRun e, .cmdDirsetup e, .cmdAccel e, .cmdPwmfreq e, .cmdIdle e] →
    exec i s = .next t →
    t = { s with cmdLatch := t.cmdLatch, phase := .send, draws := t.draws }

/-! ## FB -/

/-- R117, R119, R120: FB completes in every state; what it writes into `fbLatch`, `din`, `ready` and
`lostPackets`. -/
def Obligations.FeedbackUpdatesState : Prop :=
  ∀ (f : FeedbackFrame) (s : State), ∃ t, exec (.fb f) s = .next t ∧
    t.fbLatch = f ∧
    (∀ k : Fin 8, t.din.get k = f.io.getLsbD k.val) ∧
    (t.ready = true ↔ f.control &&& Config.flagReady ≠ 0) ∧
    t.lostPackets = s.lostPackets - 1

/-- R118: the feedback outputs are the fields, widened exactly and divided by the scale. Where the field and the scale
are finite and not 0 the output is their quotient, rounded to the nearest binary64; 2000 by 1000.0 is 2.0 (W3). -/
def Obligations.FeedbackScalesOutputs : Prop :=
  ∀ (f : FeedbackFrame) (s : State), ∃ t, exec (.fb f) s = .next t ∧
    ∀ i : Fin 3,
      t.positionFeedback.get i = bits64 (Config.free64 s.draws i.val)
        (divF64 (Datum.ofI32 (f.pos.get i)) (Datum.ofBits64 (s.inp.scale.get i))) ∧
      t.velocityFeedback.get i = bits64 (Config.free64 s.draws (3 + i.val))
        (divF64 (Datum.ofBits32 (f.vel.get i)) (Datum.ofBits64 (s.inp.scale.get i))) ∧
      (∀ (v : Bool) (n : Nat) (x : Int), Datum.ofBits64 (s.inp.scale.get i) = .fin v n x → 0 < n →
        (f.pos.get i ≠ 0 →
          IsF64 (decide ((f.pos.get i).toInt < 0) ^^ v) (|((f.pos.get i).toInt : ℚ)| / (n * 2 ^ x))
            (t.positionFeedback.get i)) ∧
        (∀ (u : Bool) (m : Nat) (y : Int), Datum.ofBits32 (f.vel.get i) = .fin u m y → 0 < m →
          IsF64 (u ^^ v) (m * 2 ^ y / (n * 2 ^ x)) (t.velocityFeedback.get i))) ∧
      (f.pos.get i = 2000 → s.inp.scale.get i = 0x408F400000000000#64 →
        t.positionFeedback.get i = 0x4000000000000000#64)

/-- R93, R117 to R120: FB leaves every other element, the frame buffers and the wire as they are and returns the
phase to IDLE. -/
def Obligations.FeedbackFrameCondition : Prop :=
  ∀ (f : FeedbackFrame) (s t : State), exec (.fb f) s = .next t →
    t = { s with
      fbLatch := t.fbLatch, din := t.din, positionFeedback := t.positionFeedback,
      velocityFeedback := t.velocityFeedback, ready := t.ready, lostPackets := t.lostPackets,
      lastOutcome := .ok, phase := .idle, draws := t.draws }

/-! ## INIT and SHUTDOWN -/

/-- R130, R41: while closed, and if Acquire succeeds, INIT answers InitOk with every element at its value after
INIT. -/
def Obligations.InitResetsEveryElement : Prop :=
  ∀ s : State, s.tstate = .closed → s.port.acquire = .ok → ∃ t, exec .init s = .next t ∧
    t.initAnswer = .initOk ∧
    t.tstate = .opened ∧
    t.cfgEndpoint = s.port.endpoint ∧ t.cfgTSend = s.port.tSend ∧ t.cfgTRecv = s.port.tRecv ∧
    t.ready = false ∧ t.lostPackets = 0 ∧
    t.cmdLatch = ⟨0, 0, ⟨0, 0, 0, 0, 0, 0⟩, ⟨0, 0, 0⟩, ⟨0, 0, 0⟩⟩ ∧
    t.fbLatch = ⟨0, 0, ⟨0, 0, 0⟩, ⟨0, 0, 0⟩⟩ ∧
    t.positionFeedback = ⟨0, 0, 0⟩ ∧ t.velocityFeedback = ⟨0, 0, 0⟩ ∧
    (∀ k : Fin 8, t.din.get k = false) ∧
    t.lastOutcome = .none ∧ t.phase = .idle

/-- R131: when Acquire fails, INIT answers InitFailed, stays closed and writes no other element. -/
def Obligations.InitFailureWritesNothing : Prop :=
  ∀ s : State, s.tstate = .closed → s.port.acquire = .fail →
    exec .init s = .next { s with initAnswer := .initFailed }

/-- R133: INIT while open faults. -/
def Obligations.InitWhileOpenFaults : Prop :=
  ∀ s : State, s.tstate = .opened → exec .init s = .fault .initWhileOpen

/-- R130, R132: what INIT leaves alone: the frame buffers, `in`, the wire, the host interface; the discard-read
takes at most one datagram. That the frame buffers and `in` keep their values is the model's choice (log 6,
log 7). -/
def Obligations.InitFrameCondition : Prop :=
  ∀ s t : State, exec .init s = .next t →
    t.txbuf = s.txbuf ∧ t.rxbuf = s.rxbuf ∧ t.inp = s.inp ∧ t.sent = s.sent ∧ t.port = s.port ∧
    t.calls = s.calls ∧ t.draws = s.draws ∧
    (t.queue = s.queue ∨ ∃ b, s.queue = b :: t.queue)

/-- R134, R43: SHUTDOWN completes in every open state and closes the transport, sending no datagram. The wire, the host
interface and the calls to come do not change. That the frame buffers keep their contents is the model's choice
(log 6), and so is that the last answer of INIT is kept (log 20). The other elements of R18 hold no defined value from
then on (log 14), and the closed transport's queue is gone (log 4). -/
def Obligations.ShutdownCloses : Prop :=
  ∀ s : State, s.tstate = .opened → ∃ t, exec .shutdown s = .next t ∧
    t.tstate = .closed ∧ t.phase = .idle ∧ t.sent = s.sent ∧ t.txbuf = s.txbuf ∧ t.rxbuf = s.rxbuf ∧
    t.port = s.port ∧ t.calls = s.calls ∧ t.initAnswer = s.initAnswer

/-- R135: SHUTDOWN while closed does nothing. -/
def Obligations.ShutdownWhileClosedDoesNothing : Prop :=
  ∀ s : State, s.tstate = .closed → exec .shutdown s = .next s

/-! ## CYCLE -/

/-- R95: CYCLE while closed faults. -/
def Obligations.CycleWhileClosedFaults : Prop :=
  ∀ s : State, s.tstate = .closed → exec .cycle s = .fault .cycleWhileClosed

/-- R98, R99: the frame a CYCLE sends is CMD_RUN while `ready`, else that of the stage the last accepted feedback
selects, in strict priority order; `enable` is not read for it. -/
def Obligations.CycleSelectsFrame : Prop :=
  ∀ s : State, s.tstate = .opened → ∃ t, exec .cycle s = .next t ∧
    (s.ready = true → t.cmdLatch = runFrame s.draws s.port.inputs.enable s.port.inputs) ∧
    (s.ready = false → s.fbLatch.control &&& Config.flagDirsetup = 0 →
      t.cmdLatch = dirsetupFrame s.port.inputs.enable s.port.inputs) ∧
    (s.ready = false → s.fbLatch.control &&& Config.flagDirsetup ≠ 0 → s.fbLatch.control &&& Config.flagAccel = 0 →
      t.cmdLatch = accelFrame s.draws s.port.inputs.enable s.port.inputs) ∧
    (s.ready = false → s.fbLatch.control &&& Config.flagDirsetup ≠ 0 → s.fbLatch.control &&& Config.flagAccel ≠ 0 →
      s.fbLatch.control &&& Config.flagPwmfreq = 0 →
      t.cmdLatch = pwmfreqFrame s.port.inputs.enable s.port.inputs) ∧
    (s.ready = false → s.fbLatch.control &&& Config.flagDirsetup ≠ 0 → s.fbLatch.control &&& Config.flagAccel ≠ 0 →
      s.fbLatch.control &&& Config.flagPwmfreq ≠ 0 →
      t.cmdLatch = idleFrame s.port.inputs.enable)

/-- R93, R112, R113, R115, R117 to R120: a CYCLE whose Send is accepted and whose Recv returns 26 bytes takes over
the decoded frame, with the sampled scale, and leaves the loss count where it was. That the datagram is the oldest of
a queue in the state is the model's choice (log 3). What value the feedback outputs are, FeedbackScalesOutputs and
ProductAndQuotientAreRounded say. -/
def Obligations.CycleCompletesRoundTrip : Prop :=
  ∀ (s : State) (b : List Byte) (q : List (List Byte)) (f : FeedbackFrame),
    s.tstate = .opened → s.port.send = .ok → s.port.recv = .deliver → s.queue = b :: q → decodeFb b = .ok f →
    ∃ t, exec .cycle s = .next t ∧
      t.fbLatch = f ∧ t.ready = hasFlag f.control Config.flagReady ∧ t.lostPackets = s.lostPackets ∧
      (∀ k : Fin 8, t.din.get k = f.io.getLsbD k.val) ∧
      (∃ n, ∀ i : Fin 3,
        t.positionFeedback.get i =
          posFeedback (Config.free64 n i.val) (f.pos.get i) (s.port.inputs.scale.get i) ∧
        t.velocityFeedback.get i =
          velFeedback (Config.free64 n (3 + i.val)) (f.vel.get i) (s.port.inputs.scale.get i)) ∧
      t.inp = s.port.inputs ∧ t.txbuf = encodeCmd t.cmdLatch ∧ t.rxbuf = b ∧ t.queue = q ∧ t.phase = .idle

/-- R114: after a failed Send the cycle ends without a Recv; the count keeps its increment and the feedback state is
unchanged. -/
def Obligations.SendFailureEndsCycle : Prop :=
  ∀ s : State, s.tstate = .opened → s.port.send = .fail → ∃ t, exec .cycle s = .next t ∧
    t.ready = false ∧ t.lostPackets = s.lostPackets + 1 ∧ t.queue = s.queue ∧ t.rxbuf = s.rxbuf ∧
    t.fbLatch = s.fbLatch ∧ t.din = s.din ∧ t.positionFeedback = s.positionFeedback ∧
    t.velocityFeedback = s.velocityFeedback ∧ t.phase = .idle

/-- R116: a timeout or a datagram of the wrong length ends the cycle as a receive failure. -/
def Obligations.ReceiveFailureEndsCycle : Prop :=
  ∀ s : State, s.tstate = .opened → s.port.send = .ok →
    (s.port.recv = .timeout ∨ s.queue = [] ∨ ∃ b q, s.queue = b :: q ∧ b.length ≠ 26) →
    ∃ t, exec .cycle s = .next t ∧
      t.ready = false ∧ t.lostPackets = s.lostPackets + 1 ∧
      t.fbLatch = s.fbLatch ∧ t.din = s.din ∧ t.positionFeedback = s.positionFeedback ∧
      t.velocityFeedback = s.velocityFeedback ∧ t.phase = .idle

/-- R141: the uniform policy: the state after any of the three errors differs from the one before only in `ready`
0, the loss count one higher, the frame built and sent, the outcome, RXBUF after a size mismatch, and what every
CYCLE writes besides (`in`; and, of the environment, the wire, the receive queue and the draw counter). -/
def Obligations.FailurePolicyIsUniform : Prop :=
  ∀ s : State, s.tstate = .opened → s.roundTripOk = false → ∃ t, exec .cycle s = .next t ∧
    t = { s with
      ready := false, lostPackets := s.lostPackets + 1, cmdLatch := t.cmdLatch, txbuf := encodeCmd t.cmdLatch,
      lastOutcome := t.lastOutcome, rxbuf := t.rxbuf, inp := s.port.inputs, phase := .idle,
      sent := t.sent, queue := t.queue, draws := t.draws } ∧
    (t.rxbuf = s.rxbuf ∨ ∃ b q, s.queue = b :: q ∧ b.length ≠ 26 ∧ t.rxbuf = b ∧ t.queue = q)

/-- R113, R114, R116, R120: each CYCLE adds exactly 0 or 1 to the loss count, modulo 2^32. The spec states this in R121
and marks it derived from those rules. -/
def Obligations.LossPerCycle : Prop :=
  ∀ s : State, s.tstate = .opened → ∃ t, exec .cycle s = .next t ∧
    t.lostPackets.toNat = (s.lostPackets.toNat + if s.roundTripOk then 0 else 1) % 2 ^ 32

/-- R113, R114, R116, R120: over any sequence of CYCLEs with any inputs and any transport answers, the loss count grows
by exactly the number of cycles whose round trip did not complete, modulo 2^32, and `ready` is 0 after every failed
cycle. The spec states this in R121 and marks it derived from those rules. That the sequence is a list in the state is
the model's choice (log 2, log 3). -/
def Obligations.LossOverManyCycles : Prop :=
  (∀ (cs : List Invocation) (s : State),
    s.phase = .idle → s.tstate = .opened → s.calls = cs → (∀ c ∈ cs, c.op = 0b10#2) →
    ∃ t, core.run cs.length s = .next t ∧
      t.lostPackets = s.lostPackets + BitVec.ofNat 32 (failedCycles s.queue cs)) ∧
  (∀ s t : State, exec .cycle s = .next t → s.roundTripOk = false → t.ready = false)

/-- R93, R112, R115: every non-faulting CYCLE issues exactly one Send, of the frame just built, takes at most one
datagram, and accepts a frame only with the datagram it took. The spec states this as R123 and marks it derived from
R93. -/
def Obligations.ExchangeIsOneSendOneReceive : Prop :=
  ∀ s t : State, exec .cycle s = .next t →
    t.sent = s.sent ++ [⟨s.cfgEndpoint, encodeCmd t.cmdLatch, s.port.send⟩] ∧
    (t.queue = s.queue ∨ ∃ b, s.queue = b :: t.queue) ∧
    (t.fbLatch = s.fbLatch ∨ ∃ b, s.queue = b :: t.queue ∧ decodeFb b = .ok t.fbLatch)

/-- R98, R99: with `ready` 0, a later stage is sent only if the last accepted feedback acknowledges the earlier ones.
The spec states this as R127 and marks it derived from those rules. The kinds are told by the spec's default flag bits
(log 18). -/
def Obligations.HandshakeOrder : Prop :=
  ∀ s t : State, s.ready = false → exec .cycle s = .next t →
    (t.cmdLatch.control &&& 0x7F = 0x02 → s.fbLatch.control &&& Config.flagDirsetup ≠ 0) ∧
    (t.cmdLatch.control &&& 0x7F = 0x04 →
      s.fbLatch.control &&& Config.flagDirsetup ≠ 0 ∧ s.fbLatch.control &&& Config.flagAccel ≠ 0) ∧
    (t.cmdLatch.control &&& 0x7F = 0x00 →
      s.fbLatch.control &&& Config.flagDirsetup ≠ 0 ∧ s.fbLatch.control &&& Config.flagAccel ≠ 0 ∧
        s.fbLatch.control &&& Config.flagPwmfreq ≠ 0) ∧
    t.cmdLatch.control &&& 0x7F ≠ 0x40

/-- R100 to R105: with `ready` 0 the payload carries configuration values or zeros; with `ready` 1 it is the motion
frame. The spec states this as R128 and marks it derived from those rules. -/
def Obligations.PayloadIsMultiplexed : Prop :=
  ∀ s t : State, exec .cycle s = .next t →
    (s.ready = false →
      (∀ i : Fin 3,
        (t.cmdLatch.pos.get i = cvtDir (s.port.inputs.dirSetup.get i) ∨
          t.cmdLatch.pos.get i = cvtI32 (Config.free32 s.draws i.val)
            (scaled (s.port.inputs.accel.get i) (s.port.inputs.scale.get i)) ∨
          t.cmdLatch.pos.get i = 0) ∧
        t.cmdLatch.vel.get i = 0) ∧
      (∀ j : Fin 6, t.cmdLatch.pwm.get j = cvtFreq (s.port.inputs.pwmFrequency.get j) ∨ t.cmdLatch.pwm.get j = 0) ∧
      t.cmdLatch.io = 0) ∧
    (s.ready = true → t.cmdLatch = runFrame s.draws s.port.inputs.enable s.port.inputs)

/-- R98, R100, R102 to R105 (W6): while not ready, the motion inputs influence nothing but the sample itself: two CYCLEs that differ
only in them end in states that differ only in `in` and the host's own signals. -/
def Obligations.MotionInputsAreInvisibleUntilReady : Prop :=
  ∀ (s t : State) (p v : Axes F64) (o : Channels Bool) (d : Channels F64),
    s.ready = false → exec .cycle s = .next t →
    ∃ u, exec .cycle { s with port := { s.port with inputs :=
        { s.port.inputs with positionCommand := p, velocityCommand := v, dout := o, duty := d } } } = .next u ∧
      { u with inp := t.inp, port := t.port } = t

/-- R97: the ENABLE bit of every frame sent is `in.enable`, and the kind bits do not depend on it. -/
def Obligations.EnableBitIsFresh : Prop :=
  ∀ s t : State, exec .cycle s = .next t →
    t.cmdLatch.control &&& Config.flagEnable = (if s.port.inputs.enable then Config.flagEnable else 0) ∧
    t.cmdLatch.control &&& ~~~Config.flagEnable = kindBits (frameKind s.ready s.fbLatch.control) ∧
    t.txbuf[0]? = some t.cmdLatch.control

/-- R30, R39, R93: what CYCLE leaves alone. -/
def Obligations.CycleFrameCondition : Prop :=
  ∀ s t : State, exec .cycle s = .next t →
    t.tstate = s.tstate ∧ t.cfgEndpoint = s.cfgEndpoint ∧ t.cfgTSend = s.cfgTSend ∧ t.cfgTRecv = s.cfgTRecv ∧
    t.port = s.port ∧ t.calls = s.calls ∧ t.initAnswer = s.initAnswer ∧
    (t.rxbuf = s.rxbuf ∨ ∃ b, s.queue = b :: t.queue ∧ t.rxbuf = b)

/-- R31, R93, R94: the one atomic CYCLE is its phases run one after another: from the same state with a cycle
begun (phase SAMPLE), at most five single-phase steps end in the same state. That the phases can be stepped singly is the
model's choice (log 15). -/
def Obligations.CycleIsItsPhases : Prop :=
  ∀ s t : State, exec .cycle s = .next t →
    ∃ n, n ≤ 5 ∧ core.run n { s with phase := .sample } = .next t

/-! ## The whole machine -/

/-- When the host invokes an operation, the step runs it in the state with that invocation presented; in BUILD the
step runs the frame kind the state selects; in UPDATE it runs the feedback frame that RXBUF decodes to (R31, R82, R93,
R98). That invocations are a list in the state and that the phases can be stepped singly is the model's choice
(log 2, log 15). -/
def Obligations.StepRunsDecodedInstruction : Prop :=
  (∀ (s : State) (c : Invocation) (rest : List Invocation) (i : Instr),
    s.phase = .idle → s.calls = c :: rest → decode (.select c.op) = .instr i → i.wellFormed = true →
    step s = exec i { s with port := c, queue := s.queue ++ c.arrivals, calls := rest }) ∧
  (∀ (s : State), s.phase = .build →
    step s = exec (kindInstr (frameKind s.ready s.fbLatch.control) s.inp.enable) s) ∧
  (∀ (s : State) (f : FeedbackFrame), s.phase = .update → decode (.datagram s.rxbuf) = .instr (.fb f) →
    step s = exec (.fb f) s)

/-- R82: the select code 00 selects nothing and is refused. -/
def Obligations.OpSelectNoneIsRefused : Prop :=
  ∀ (s : State) (c : Invocation) (rest : List Invocation),
    s.phase = .idle → s.calls = c :: rest → c.op = 0b00#2 → step s = .refused .opSelectNone

/-- R153: between operations the block does nothing and holds its state. That such a step exists is the model's choice
(log 2). -/
def Obligations.IdleHoldsState : Prop :=
  ∀ s : State, s.phase = .idle → s.calls = [] → step s = .next s

/-- R31, R32: a step from between two operations ends between two operations. -/
def Obligations.OperationsEndIdle : Prop :=
  ∀ s t : State, s.phase = .idle → step s = .next t → t.phase = .idle

/-- R30, R40, R41: the reset state is CLOSED and IDLE, and the first INIT, if Acquire succeeds, leads from it to every
element at its value after INIT, the configuration registers at INIT's arguments. That the other elements hold those
values already at reset is the model's choice (log 1), that INIT leaves the frame buffers and `in` alone too (log 6,
log 7), and that the queue is empty at reset (log 8). -/
def Obligations.ResetHoldsInitValues : Prop :=
  (State.reset.ready = false ∧ State.reset.lostPackets = 0 ∧
    State.reset.cmdLatch = CommandFrame.zero ∧ State.reset.fbLatch = FeedbackFrame.zero ∧
    State.reset.positionFeedback = Axes.all 0 ∧ State.reset.velocityFeedback = Axes.all 0 ∧
    State.reset.din = Octet.all false ∧ State.reset.tstate = .closed ∧ State.reset.phase = .idle ∧
    State.reset.lastOutcome = .none) ∧
  (∀ c : Invocation, c.op = 0b01#2 → c.acquire = .ok →
    step { State.reset with calls := [c] } = .next { State.reset with
      tstate := .opened, cfgEndpoint := c.endpoint, cfgTSend := c.tSend, cfgTRecv := c.tRecv,
      port := c, queue := queueAfterRecv c.recv c.arrivals, initAnswer := .initOk })

/-- R41, R99: the first CYCLE after INIT sends CMD_DIRSETUP, with ENABLE equal to `enable`, whatever the inputs and
answers, in the run from reset. The spec states this in R154 and marks it derived from those rules. That the run is a
list of invocations in the state is the model's choice (log 2). -/
def Obligations.FirstCycleSendsDirsetup : Prop :=
  ∀ i c : Invocation, i.op = 0b01#2 → i.acquire = .ok → c.op = 0b10#2 →
    ∃ t, core.run 2 { State.reset with calls := [i, c] } = .next t ∧
      t.cmdLatch = dirsetupFrame c.inputs.enable c.inputs ∧ t.txbuf = encodeCmd t.cmdLatch

/-- R23, R46, R76, R119: every step keeps the invariant, from every state that has it. The spec states its clauses as
R44 (a) to (d) and marks them derived. -/
def Obligations.EveryStepKeepsInvariant : Prop :=
  ∀ s t : State, s.Inv → step s = .next t → t.Inv

/-- R41: the reset state has the invariant of R44, and so has the open state to which the first INIT leads from it,
if Acquire succeeds. -/
def Obligations.ResetHasInvariant : Prop :=
  State.reset.Inv ∧
  ∀ c : Invocation, c.op = 0b01#2 → c.acquire = .ok →
    ∃ t, step { State.reset with calls := [c] } = .next t ∧ t.tstate = .opened ∧ t.Inv

/-- R119, R156: over all operations, while the transport is open after the step, `ready` becomes 1 only from a
datagram of 26 bytes, oldest in the queue, whose frame has READY set; and a frame of kind CMD_RUN is offered only
if `ready` was 1. -/
def Obligations.MotionNeedsReady : Prop :=
  ∀ s t : State, s.phase = .idle → step s = .next t → t.tstate = .opened →
    (s.ready = false → t.ready = true →
      ∃ c rest b f, s.calls = c :: rest ∧ (s.queue ++ c.arrivals).head? = some b ∧ decodeFb b = .ok f ∧
        f.control &&& Config.flagReady ≠ 0 ∧ t.fbLatch = f) ∧
    (∀ o, t.sent = s.sent ++ [o] → o.kind = some .run → s.ready = true)

/-! ## Binary64 arithmetic -/

/-- R13: the product and the quotient of finite values that are not 0 are binary64 values: the exact result, with the
XOR of the signs, rounded to nearest, ties to even, from the midpoint above the largest finite value on an infinity.
Zeros, infinities and NaN give the IEEE results: `x / 0` is an infinity for `x ≠ 0`, `0 / 0`, `0 * inf` and `inf / inf`
are NaN. -/
def Obligations.ProductAndQuotientAreRounded : Prop :=
  (∀ (s t : Bool) (m n : Nat) (e f : Int), 0 < m → 0 < n →
    (∃ b, mulF64 (.fin s m e) (.fin t n f) = Datum.ofBits64 b ∧ IsF64 (s ^^ t) (m * 2 ^ e * (n * 2 ^ f)) b) ∧
    (∃ b, divF64 (.fin s m e) (.fin t n f) = Datum.ofBits64 b ∧ IsF64 (s ^^ t) (m * 2 ^ e / (n * 2 ^ f)) b)) ∧
  (∀ x, mulF64 .nan x = .nan ∧ mulF64 x .nan = .nan ∧ divF64 .nan x = .nan ∧ divF64 x .nan = .nan) ∧
  (∀ s t, mulF64 (.inf s) (.inf t) = .inf (s ^^ t) ∧ divF64 (.inf s) (.inf t) = .nan) ∧
  (∀ s t m e, 0 < m → mulF64 (.inf s) (.fin t m e) = .inf (s ^^ t) ∧ mulF64 (.fin t m e) (.inf s) = .inf (t ^^ s)) ∧
  (∀ s t e, mulF64 (.inf s) (.fin t 0 e) = .nan ∧ mulF64 (.fin t 0 e) (.inf s) = .nan) ∧
  (∀ s t m e, divF64 (.inf s) (.fin t m e) = .inf (s ^^ t)) ∧
  (∀ free s t m e, (bits64 free (divF64 (.fin s m e) (.inf t))).toNat = if (s ^^ t) then 2 ^ 63 else 0) ∧
  (∀ s t m e f, 0 < m → divF64 (.fin s m e) (.fin t 0 f) = .inf (s ^^ t)) ∧
  (∀ s t e f, divF64 (.fin s 0 e) (.fin t 0 f) = .nan) ∧
  (∀ free s t m n e f, m = 0 ∨ n = 0 →
    (bits64 free (mulF64 (.fin s m e) (.fin t n f))).toNat = if (s ^^ t) then 2 ^ 63 else 0) ∧
  (∀ free s t n e f, 0 < n →
    (bits64 free (divF64 (.fin s 0 e) (.fin t n f))).toNat = if (s ^^ t) then 2 ^ 63 else 0)
end

