-- ==== Sys2Proof/Laws/Codec.lean ====
section
/-!
SUPPORT. The Frame Codec: field bytes and their values, and the bytes of the two frames.
-/

namespace Sys2Proof

/-! ## Field bytes -/

@[simp] theorem leBytes_length (n v : Nat) : (leBytes n v).length = n := by
  induction n generalizing v with
  | zero => rfl
  | succ n ih => simp [leBytes, ih]

@[simp] theorem inOrder_length (en : Endian) (bs : List Byte) : (inOrder en bs).length = bs.length := by
  cases en <;> simp [inOrder]

@[simp] theorem inOrder_inOrder (en : Endian) (bs : List Byte) : inOrder en (inOrder en bs) = bs := by
  cases en <;> simp [inOrder]

/-- The value of a field's bytes is the field, narrowed to its width (R47, R48). -/
theorem leValue_leBytes (n v : Nat) : leValue (leBytes n v) = v % 256 ^ n := by
  induction n generalizing v with
  | zero => simp [leBytes, leValue, Nat.mod_one]
  | succ n ih =>
    have h := Nat.mod_mul (x := v) (a := 256) (b := 256 ^ n)
    have hb : (BitVec.ofNat 8 v).toNat = v % 256 := BitVec.toNat_ofNat v 8
    rw [leBytes, leValue, ih, hb, pow_succ' 256 n, h]

/-- A field's bytes are those of its value. -/
theorem leBytes_leValue (l : List Byte) : leBytes l.length (leValue l) = l := by
  induction l with
  | nil => rfl
  | cons b bs ih =>
    have hb := b.isLt
    have hd : (b.toNat + 256 * leValue bs) / 256 = leValue bs := by omega
    have hm : BitVec.ofNat 8 (b.toNat + 256 * leValue bs) = b := by
      apply BitVec.eq_of_toNat_eq
      rw [BitVec.toNat_ofNat]
      omega
    simp only [List.length_cons, leBytes, leValue, hd, ih, hm]

@[simp] theorem putBytes_length (buf : List Byte) (o : Nat) (bs : List Byte) :
    (putBytes buf o bs).length = buf.length := by
  induction bs generalizing buf o with
  | nil => rfl
  | cons b bs ih => simp [putBytes, ih]

/-- `MemWrite` keeps the length of its buffer (R46, R48). -/
@[simp] theorem memWrite_length (en : Endian) (buf : List Byte) (o n v : Nat) :
    (memWrite en buf o n v).length = buf.length := by simp [memWrite]

@[simp] theorem memWriteEach_length (en : Endian) (buf : List Byte) (o n : Nat) (vs : List Nat) :
    (memWriteEach en buf o n vs).length = buf.length := by
  induction vs generalizing buf o with
  | nil => rfl
  | cons v vs ih => simp [memWriteEach, ih]

/-- The bytes put at the end of what is already there fill the buffer from there on. -/
theorem putBytes_append (done bs rest : List Byte) (h : bs.length ≤ rest.length) :
    putBytes (done ++ rest) done.length bs = done ++ bs ++ rest.drop bs.length := by
  induction bs generalizing done rest with
  | nil => simp [putBytes]
  | cons b bs ih =>
    cases rest with
    | nil => simp at h
    | cons r rest =>
      have := ih (done ++ [b]) rest (by simpa using h)
      simpa [putBytes] using this

theorem memWrite_append (en : Endian) (done rest : List Byte) (n v : Nat) (h : n ≤ rest.length) :
    memWrite en (done ++ rest) done.length n v =
      done ++ inOrder en (leBytes n v) ++ rest.drop n := by
  have := putBytes_append done (inOrder en (leBytes n v)) rest (by simpa using h)
  simpa [memWrite] using this

theorem memWriteEach_append (en : Endian) (done rest : List Byte) (n : Nat) (vs : List Nat)
    (h : n * vs.length ≤ rest.length) :
    memWriteEach en (done ++ rest) done.length n vs =
      done ++ vs.flatMap (fun v => inOrder en (leBytes n v)) ++ rest.drop (n * vs.length) := by
  induction vs generalizing done rest with
  | nil => simp [memWriteEach]
  | cons v vs ih =>
    have hn : n + n * vs.length ≤ rest.length := by
      simpa [Nat.mul_succ, Nat.add_comm] using h
    have := ih (done ++ inOrder en (leBytes n v)) (rest.drop n) (by simp; omega)
    rw [memWriteEach, memWrite_append en done rest n v (by omega)]
    simpa [Nat.mul_succ, Nat.add_comm, List.drop_drop] using this

/-! ## The bytes of the frames -/

/-- The fields of a CommandFrame in declared order, without the checksum (R65). -/
def cmdPayload (en : Endian) (c : CommandFrame) : List Byte :=
  [c.control, c.io] ++ (c.pwm.toList.map BitVec.toNat).flatMap (fun v => inOrder en (leBytes 2 v)) ++
    (c.pos.toList.map BitVec.toNat).flatMap (fun v => inOrder en (leBytes 4 v)) ++
    (c.vel.toList.map BitVec.toNat).flatMap (fun v => inOrder en (leBytes 4 v))

/-- The fields of a FeedbackFrame in declared order (R66). -/
def fbPayload (en : Endian) (f : FeedbackFrame) : List Byte :=
  [f.control, f.io] ++ (f.pos.toList.map BitVec.toNat).flatMap (fun v => inOrder en (leBytes 4 v)) ++
    (f.vel.toList.map BitVec.toNat).flatMap (fun v => inOrder en (leBytes 4 v))

theorem cmdPayload_length (en : Endian) (c : CommandFrame) : (cmdPayload en c).length = 38 := by
  simp [cmdPayload, Channels.toList, Axes.toList]

theorem fbPayload_length (en : Endian) (f : FeedbackFrame) : (fbPayload en f).length = 26 := by
  simp [fbPayload, Axes.toList]

theorem leBytes_one (b : Byte) : leBytes 1 b.toNat = [b] := by simp [leBytes]

theorem inOrder_one (en : Endian) (b : Byte) : inOrder en [b] = [b] := by cases en <;> rfl

/-- ENCODE_CMD writes the fields one after another and leaves the last byte 0 (R85). -/
theorem serializeCmd_eq (en : Endian) (c : CommandFrame) : serializeCmd en c = cmdPayload en c ++ [0] := by
  have h0 := memWrite_append en [] (List.replicate 39 0) 1 c.control.toNat (by simp)
  have h1 := memWrite_append en [c.control] (List.replicate 38 0) 1 c.io.toNat (by simp)
  have h2 := memWriteEach_append en [c.control, c.io] (List.replicate 37 0) 2 (c.pwm.toList.map BitVec.toNat)
    (by simp [Channels.toList])
  have h3 := memWriteEach_append en
    ([c.control, c.io] ++ (c.pwm.toList.map BitVec.toNat).flatMap (fun v => inOrder en (leBytes 2 v)))
    (List.replicate 25 0) 4 (c.pos.toList.map BitVec.toNat) (by simp [Axes.toList])
  have h4 := memWriteEach_append en
    ([c.control, c.io] ++ (c.pwm.toList.map BitVec.toNat).flatMap (fun v => inOrder en (leBytes 2 v)) ++
      (c.pos.toList.map BitVec.toNat).flatMap (fun v => inOrder en (leBytes 4 v)))
    (List.replicate 13 0) 4 (c.vel.toList.map BitVec.toNat) (by simp [Axes.toList])
  simp [leBytes_one, inOrder_one, Axes.toList, Channels.toList] at h0 h1 h2 h3 h4
  simp [serializeCmd, cmdPayload, Config.cmdWireLen, h0, h1, h2, h3, h4, Axes.toList, Channels.toList]

/-- The 39 bytes of a command datagram: the fields in declared order, then their checksum (R65, R85). -/
theorem encodeCmdIn_eq (en : Endian) (c : CommandFrame) :
    encodeCmdIn en c = cmdPayload en c ++ [checksum (cmdPayload en c)] := by
  have hl := cmdPayload_length en c
  have ht : (cmdPayload en c ++ [0]).take Config.cmdLen = cmdPayload en c := by
    rw [List.take_append_of_le_length (by simp [hl, Config.cmdLen])]
    simp [List.take_of_length_le, hl, Config.cmdLen]
  have hm := memWrite_append en (cmdPayload en c) [0] 1 (checksum (cmdPayload en c)).toNat (by simp)
  rw [hl] at hm
  simp only [encodeCmdIn, serializeCmd_eq, ht, hm, leBytes_one, inOrder_one]
  simp

/-- The length of a command datagram (R46, R85). -/
@[simp] theorem encodeCmd_length (c : CommandFrame) : (encodeCmd c).length = 39 := by
  simp [encodeCmd, encodeCmdIn_eq, cmdPayload_length]

/-- The 26 bytes of a feedback datagram (R66, R89). -/
theorem encodeFbIn_eq (en : Endian) (f : FeedbackFrame) : encodeFbIn en f = fbPayload en f := by
  have h0 := memWrite_append en [] (List.replicate 26 0) 1 f.control.toNat (by simp)
  have h1 := memWrite_append en [f.control] (List.replicate 25 0) 1 f.io.toNat (by simp)
  have h2 := memWriteEach_append en [f.control, f.io] (List.replicate 24 0) 4 (f.pos.toList.map BitVec.toNat)
    (by simp [Axes.toList])
  have h3 := memWriteEach_append en
    ([f.control, f.io] ++ (f.pos.toList.map BitVec.toNat).flatMap (fun v => inOrder en (leBytes 4 v)))
    (List.replicate 12 0) 4 (f.vel.toList.map BitVec.toNat) (by simp [Axes.toList])
  simp [leBytes_one, inOrder_one, Axes.toList] at h0 h1 h2 h3
  simp [encodeFbIn, fbPayload, Config.fbLen, h0, h1, h2, h3, Axes.toList]

@[simp] theorem encodeFb_length (f : FeedbackFrame) : (encodeFb f).length = 26 := by
  simp [encodeFb, encodeFbIn_eq, fbPayload_length]

/-- The control byte of a command datagram stands at offset 0 (R65). -/
@[simp] theorem encodeCmd_head? (c : CommandFrame) : (encodeCmd c).head? = some c.control := by
  simp [encodeCmd, encodeCmdIn_eq, cmdPayload]

/-- DECODE_FB answers a frame exactly for 26 bytes (R88). -/
theorem decodeFb_eq_ok_iff (b : List Byte) (f : FeedbackFrame) :
    decodeFb b = .ok f ↔ b.length = 26 ∧ readFb Config.endian b = f := by
  unfold decodeFb Config.fbLen
  split <;> simp [*]

theorem decodeFb_eq_sizeMismatch_iff (b : List Byte) : decodeFb b = .sizeMismatch ↔ b.length ≠ 26 := by
  unfold decodeFb Config.fbLen
  split <;> simp [*]

/-! ## The checksum -/

theorem xorFold_start (c d : Byte) (p : List Byte) : xorFold (c ^^^ d) p = xorFold c p ^^^ d := by
  induction p generalizing c with
  | nil => rfl
  | cons b p ih =>
    have : c ^^^ d ^^^ b = c ^^^ b ^^^ d := by
      rw [BitVec.xor_assoc, BitVec.xor_comm d b, ← BitVec.xor_assoc]
    simpa [xorFold, this] using ih (c ^^^ b)

theorem xorFold_append (c : Byte) (p q : List Byte) : xorFold c (p ++ q) = xorFold (xorFold c p) q := by
  simp [xorFold]

end Sys2Proof
end

