-- ==== Sys2Proof/Laws/Ieee.lean ====
section
/-!
SUPPORT. The small lemmas of the IEEE terms (R13): `pow2`, `floorLog2` and the value of a magnitude pattern.
-/

namespace Sys2Proof.Machine

theorem pow2_pos (e : Int) : 0 < pow2 e := by
  unfold pow2
  positivity

/-- The two natural powers of an exponent make its rational power. -/
theorem zpow_two_eq (e : Int) : (2 : ℚ) ^ e = pow2 e / pow2 (-e) := by
  unfold pow2
  rcases le_total 0 e with h | h
  · obtain ⟨k, rfl⟩ := Int.eq_ofNat_of_zero_le h
    simp
  · obtain ⟨k, hk⟩ := Int.eq_ofNat_of_zero_le (a := -e) (by omega)
    obtain rfl : e = -(k : Int) := by omega
    simp

theorem scaledLe_iff (n d : Nat) (l : Int) (hd : 0 < d) : scaledLe d n l = true ↔ (2 : ℚ) ^ l ≤ n / d := by
  have hdq : (0 : ℚ) < d := by exact_mod_cast hd
  have hp : (0 : ℚ) < pow2 (-l) := by exact_mod_cast pow2_pos (-l)
  rw [zpow_two_eq, div_le_div_iff₀ hp hdq]
  unfold scaledLe
  rw [decide_eq_true_eq, mul_comm d]
  norm_cast

/-- `floorLog2` is the exponent of the binade of a positive quotient. -/
theorem floorLog2_spec (n d : Nat) (hn : 0 < n) (hd : 0 < d) :
    (2 : ℚ) ^ floorLog2 n d ≤ n / d ∧ (n : ℚ) / d < 2 ^ (floorLog2 n d + 1) := by
  have hdq : (0 : ℚ) < d := by exact_mod_cast hd
  have hn1 : (2 : ℚ) ^ n.log2 ≤ n := by exact_mod_cast Nat.log2_self_le hn.ne'
  have hn2 : (n : ℚ) < 2 ^ (n.log2 + 1) := by exact_mod_cast Nat.lt_log2_self
  have hd1 : (2 : ℚ) ^ d.log2 ≤ d := by exact_mod_cast Nat.log2_self_le hd.ne'
  have hd2 : (d : ℚ) < 2 ^ (d.log2 + 1) := by exact_mod_cast Nat.lt_log2_self
  unfold floorLog2
  simp only
  set l : Int := (n.log2 : Int) - d.log2 with hl
  have hup : (n : ℚ) / d < 2 ^ (l + 1) := by
    rw [div_lt_iff₀ hdq, hl,
      show (n.log2 : Int) - d.log2 + 1 = ((n.log2 + 1 : Nat) : Int) - (d.log2 : Int) by push_cast; ring,
      zpow_sub₀ (by norm_num)]
    simp only [zpow_natCast]
    calc (n : ℚ) < 2 ^ (n.log2 + 1) := hn2
      _ = 2 ^ (n.log2 + 1) / 2 ^ d.log2 * 2 ^ d.log2 := by field_simp
      _ ≤ _ := by gcongr
  split
  · rename_i h
    exact ⟨(scaledLe_iff n d l hd).1 h, hup⟩
  · rename_i h
    rw [scaledLe_iff n d l hd, not_le] at h
    refine ⟨?_, by simpa using h⟩
    rw [le_div_iff₀ hdq, hl,
      show (n.log2 : Int) - d.log2 - 1 = (n.log2 : Int) - ((d.log2 + 1 : Nat) : Int) by push_cast; ring,
      zpow_sub₀ (by norm_num)]
    simp only [zpow_natCast]
    calc _ ≤ (2 : ℚ) ^ n.log2 / 2 ^ (d.log2 + 1) * 2 ^ (d.log2 + 1) := by gcongr
      _ = 2 ^ n.log2 := by field_simp
      _ ≤ n := hn1

/-- The value of `r` quanta in the binade `j`, the carry into the next binade included. -/
theorem magValue_binade (frac : Nat) (qmin : Int) (j r : Nat) (hr : r ≤ 2 * 2 ^ frac) (h : j = 0 ∨ 2 ^ frac ≤ r) :
    magValue frac qmin (j * 2 ^ frac + r) = r * 2 ^ (qmin + j) := by
  have hpos : 0 < 2 ^ frac := by positivity
  unfold magValue
  by_cases hp : j * 2 ^ frac + r < 2 ^ frac
  · obtain rfl : j = 0 := by
      rcases h with h | h
      · exact h
      · have := Nat.zero_le (j * 2 ^ frac)
        omega
    simp only [zero_mul, zero_add] at hp
    simp [hp]
  · rw [if_neg hp]
    have hle : 2 ^ frac ≤ r := by
      rcases h with rfl | h
      · simpa using hp
      · exact h
    rcases hr.lt_or_eq with h2 | h2
    · have hdiv : (j * 2 ^ frac + r) / 2 ^ frac = j + 1 := by
        apply Nat.div_eq_of_lt_le <;> nlinarith
      have hmod : (j * 2 ^ frac + r) % 2 ^ frac = r - 2 ^ frac := by
        have h3 := Nat.div_add_mod (j * 2 ^ frac + r) (2 ^ frac)
        rw [hdiv] at h3
        have h4 : 2 ^ frac * (j + 1) = j * 2 ^ frac + 2 ^ frac := by ring
        omega
      rw [hdiv, hmod, Nat.cast_sub hle]
      push_cast
      rw [show qmin + (↑j + 1) - 1 = qmin + (j : Int) by ring]
      ring
    · rw [show j * 2 ^ frac + r = (j + 2) * 2 ^ frac by rw [h2]; ring, Nat.mul_div_cancel _ hpos, Nat.mul_mod_left, h2]
      push_cast
      rw [show qmin + (↑j + 2) - 1 = (qmin + (j : Int)) + 1 by ring, zpow_add₀ (by norm_num)]
      ring

/-- Every magnitude pattern is some number of quanta in some binade. -/
theorem exists_binade (frac p : Nat) :
    ∃ j r, p = j * 2 ^ frac + r ∧ r < 2 * 2 ^ frac ∧ (j = 0 ∨ 2 ^ frac ≤ r) := by
  have hpos : 0 < 2 ^ frac := by positivity
  by_cases h : p < 2 * 2 ^ frac
  · exact ⟨0, p, by simp, h, .inl rfl⟩
  · have h1 : 2 ≤ p / 2 ^ frac := by
      rw [Nat.le_div_iff_mul_le hpos]
      omega
    refine ⟨p / 2 ^ frac - 1, 2 ^ frac + p % 2 ^ frac, ?_, ?_, .inr (by omega)⟩
    · have h2 := Nat.div_add_mod p (2 ^ frac)
      obtain ⟨c, hc⟩ := Nat.exists_eq_add_of_le h1
      rw [hc] at h2 ⊢
      rw [show 2 + c - 1 = c + 1 by omega]
      nlinarith
    · have := Nat.mod_lt p hpos
      omega

/-- A larger magnitude pattern has a larger value. -/
theorem magValue_strictMono (frac : Nat) (qmin : Int) : StrictMono (magValue frac qmin) := by
  refine strictMono_nat_of_lt_succ fun p => ?_
  obtain ⟨j, r, rfl, h1, h2⟩ := exists_binade frac p
  rw [magValue_binade _ _ _ _ h1.le h2, add_assoc, magValue_binade _ _ _ (r + 1) (by omega) (by omega)]
  have : (0 : ℚ) < 2 ^ (qmin + j) := by positivity
  push_cast
  nlinarith

@[simp] theorem magValue_zero (frac : Nat) (qmin : Int) : magValue frac qmin 0 = 0 := by simp [magValue]

theorem IsRounded.le_infMag {frac : Nat} {qmin : Int} {infMag : Nat} {x : ℚ} {p : Nat}
    (h : IsRounded frac qmin infMag x p) : p ≤ infMag := by
  unfold IsRounded at h
  split at h
  · exact h.1.le
  · exact h.le

end Sys2Proof.Machine
end

