-- ==== Sys2Proof/Laws/State.lean ====
section
/-!
SUPPORT. Every field after every named update of the state.
-/

namespace Sys2Proof.Machine

variable (s : State)

/-! `State.present` -/

@[simp] theorem State.present_ready (c : Invocation) (rest : List Invocation) : (s.present c rest).ready = s.ready := rfl
@[simp] theorem State.present_lostPackets (c : Invocation) (rest : List Invocation) : (s.present c rest).lostPackets = s.lostPackets := rfl
@[simp] theorem State.present_cmdLatch (c : Invocation) (rest : List Invocation) : (s.present c rest).cmdLatch = s.cmdLatch := rfl
@[simp] theorem State.present_fbLatch (c : Invocation) (rest : List Invocation) : (s.present c rest).fbLatch = s.fbLatch := rfl
@[simp] theorem State.present_positionFeedback (c : Invocation) (rest : List Invocation) : (s.present c rest).positionFeedback = s.positionFeedback := rfl
@[simp] theorem State.present_velocityFeedback (c : Invocation) (rest : List Invocation) : (s.present c rest).velocityFeedback = s.velocityFeedback := rfl
@[simp] theorem State.present_din (c : Invocation) (rest : List Invocation) : (s.present c rest).din = s.din := rfl
@[simp] theorem State.present_tstate (c : Invocation) (rest : List Invocation) : (s.present c rest).tstate = s.tstate := rfl
@[simp] theorem State.present_cfgEndpoint (c : Invocation) (rest : List Invocation) : (s.present c rest).cfgEndpoint = s.cfgEndpoint := rfl
@[simp] theorem State.present_cfgTSend (c : Invocation) (rest : List Invocation) : (s.present c rest).cfgTSend = s.cfgTSend := rfl
@[simp] theorem State.present_cfgTRecv (c : Invocation) (rest : List Invocation) : (s.present c rest).cfgTRecv = s.cfgTRecv := rfl
@[simp] theorem State.present_phase (c : Invocation) (rest : List Invocation) : (s.present c rest).phase = s.phase := rfl
@[simp] theorem State.present_inp (c : Invocation) (rest : List Invocation) : (s.present c rest).inp = s.inp := rfl
@[simp] theorem State.present_lastOutcome (c : Invocation) (rest : List Invocation) : (s.present c rest).lastOutcome = s.lastOutcome := rfl
@[simp] theorem State.present_txbuf (c : Invocation) (rest : List Invocation) : (s.present c rest).txbuf = s.txbuf := rfl
@[simp] theorem State.present_rxbuf (c : Invocation) (rest : List Invocation) : (s.present c rest).rxbuf = s.rxbuf := rfl
@[simp] theorem State.present_port (c : Invocation) (rest : List Invocation) : (s.present c rest).port = c := rfl
@[simp] theorem State.present_queue (c : Invocation) (rest : List Invocation) : (s.present c rest).queue = s.queue ++ c.arrivals := rfl
@[simp] theorem State.present_sent (c : Invocation) (rest : List Invocation) : (s.present c rest).sent = s.sent := rfl
@[simp] theorem State.present_calls (c : Invocation) (rest : List Invocation) : (s.present c rest).calls = rest := rfl
@[simp] theorem State.present_initAnswer (c : Invocation) (rest : List Invocation) : (s.present c rest).initAnswer = s.initAnswer := rfl
@[simp] theorem State.present_draws (c : Invocation) (rest : List Invocation) : (s.present c rest).draws = s.draws := rfl

/-! `State.enter` -/

@[simp] theorem State.enter_ready (p : Phase) : (s.enter p).ready = s.ready := rfl
@[simp] theorem State.enter_lostPackets (p : Phase) : (s.enter p).lostPackets = s.lostPackets := rfl
@[simp] theorem State.enter_cmdLatch (p : Phase) : (s.enter p).cmdLatch = s.cmdLatch := rfl
@[simp] theorem State.enter_fbLatch (p : Phase) : (s.enter p).fbLatch = s.fbLatch := rfl
@[simp] theorem State.enter_positionFeedback (p : Phase) : (s.enter p).positionFeedback = s.positionFeedback := rfl
@[simp] theorem State.enter_velocityFeedback (p : Phase) : (s.enter p).velocityFeedback = s.velocityFeedback := rfl
@[simp] theorem State.enter_din (p : Phase) : (s.enter p).din = s.din := rfl
@[simp] theorem State.enter_tstate (p : Phase) : (s.enter p).tstate = s.tstate := rfl
@[simp] theorem State.enter_cfgEndpoint (p : Phase) : (s.enter p).cfgEndpoint = s.cfgEndpoint := rfl
@[simp] theorem State.enter_cfgTSend (p : Phase) : (s.enter p).cfgTSend = s.cfgTSend := rfl
@[simp] theorem State.enter_cfgTRecv (p : Phase) : (s.enter p).cfgTRecv = s.cfgTRecv := rfl
@[simp] theorem State.enter_phase (p : Phase) : (s.enter p).phase = p := rfl
@[simp] theorem State.enter_inp (p : Phase) : (s.enter p).inp = s.inp := rfl
@[simp] theorem State.enter_lastOutcome (p : Phase) : (s.enter p).lastOutcome = s.lastOutcome := rfl
@[simp] theorem State.enter_txbuf (p : Phase) : (s.enter p).txbuf = s.txbuf := rfl
@[simp] theorem State.enter_rxbuf (p : Phase) : (s.enter p).rxbuf = s.rxbuf := rfl
@[simp] theorem State.enter_port (p : Phase) : (s.enter p).port = s.port := rfl
@[simp] theorem State.enter_queue (p : Phase) : (s.enter p).queue = s.queue := rfl
@[simp] theorem State.enter_sent (p : Phase) : (s.enter p).sent = s.sent := rfl
@[simp] theorem State.enter_calls (p : Phase) : (s.enter p).calls = s.calls := rfl
@[simp] theorem State.enter_initAnswer (p : Phase) : (s.enter p).initAnswer = s.initAnswer := rfl
@[simp] theorem State.enter_draws (p : Phase) : (s.enter p).draws = s.draws := rfl

/-! `State.latchCmd` -/

@[simp] theorem State.latchCmd_ready (c : CommandFrame) : (s.latchCmd c).ready = s.ready := rfl
@[simp] theorem State.latchCmd_lostPackets (c : CommandFrame) : (s.latchCmd c).lostPackets = s.lostPackets := rfl
@[simp] theorem State.latchCmd_cmdLatch (c : CommandFrame) : (s.latchCmd c).cmdLatch = c := rfl
@[simp] theorem State.latchCmd_fbLatch (c : CommandFrame) : (s.latchCmd c).fbLatch = s.fbLatch := rfl
@[simp] theorem State.latchCmd_positionFeedback (c : CommandFrame) : (s.latchCmd c).positionFeedback = s.positionFeedback := rfl
@[simp] theorem State.latchCmd_velocityFeedback (c : CommandFrame) : (s.latchCmd c).velocityFeedback = s.velocityFeedback := rfl
@[simp] theorem State.latchCmd_din (c : CommandFrame) : (s.latchCmd c).din = s.din := rfl
@[simp] theorem State.latchCmd_tstate (c : CommandFrame) : (s.latchCmd c).tstate = s.tstate := rfl
@[simp] theorem State.latchCmd_cfgEndpoint (c : CommandFrame) : (s.latchCmd c).cfgEndpoint = s.cfgEndpoint := rfl
@[simp] theorem State.latchCmd_cfgTSend (c : CommandFrame) : (s.latchCmd c).cfgTSend = s.cfgTSend := rfl
@[simp] theorem State.latchCmd_cfgTRecv (c : CommandFrame) : (s.latchCmd c).cfgTRecv = s.cfgTRecv := rfl
@[simp] theorem State.latchCmd_phase (c : CommandFrame) : (s.latchCmd c).phase = .send := rfl
@[simp] theorem State.latchCmd_inp (c : CommandFrame) : (s.latchCmd c).inp = s.inp := rfl
@[simp] theorem State.latchCmd_lastOutcome (c : CommandFrame) : (s.latchCmd c).lastOutcome = s.lastOutcome := rfl
@[simp] theorem State.latchCmd_txbuf (c : CommandFrame) : (s.latchCmd c).txbuf = s.txbuf := rfl
@[simp] theorem State.latchCmd_rxbuf (c : CommandFrame) : (s.latchCmd c).rxbuf = s.rxbuf := rfl
@[simp] theorem State.latchCmd_port (c : CommandFrame) : (s.latchCmd c).port = s.port := rfl
@[simp] theorem State.latchCmd_queue (c : CommandFrame) : (s.latchCmd c).queue = s.queue := rfl
@[simp] theorem State.latchCmd_sent (c : CommandFrame) : (s.latchCmd c).sent = s.sent := rfl
@[simp] theorem State.latchCmd_calls (c : CommandFrame) : (s.latchCmd c).calls = s.calls := rfl
@[simp] theorem State.latchCmd_initAnswer (c : CommandFrame) : (s.latchCmd c).initAnswer = s.initAnswer := rfl
@[simp] theorem State.latchCmd_draws (c : CommandFrame) : (s.latchCmd c).draws = s.draws + 1 := rfl

/-! `State.offer` -/

@[simp] theorem State.offer_ready (b : List Byte) : (s.offer b).ready = s.ready := rfl
@[simp] theorem State.offer_lostPackets (b : List Byte) : (s.offer b).lostPackets = s.lostPackets := rfl
@[simp] theorem State.offer_cmdLatch (b : List Byte) : (s.offer b).cmdLatch = s.cmdLatch := rfl
@[simp] theorem State.offer_fbLatch (b : List Byte) : (s.offer b).fbLatch = s.fbLatch := rfl
@[simp] theorem State.offer_positionFeedback (b : List Byte) : (s.offer b).positionFeedback = s.positionFeedback := rfl
@[simp] theorem State.offer_velocityFeedback (b : List Byte) : (s.offer b).velocityFeedback = s.velocityFeedback := rfl
@[simp] theorem State.offer_din (b : List Byte) : (s.offer b).din = s.din := rfl
@[simp] theorem State.offer_tstate (b : List Byte) : (s.offer b).tstate = s.tstate := rfl
@[simp] theorem State.offer_cfgEndpoint (b : List Byte) : (s.offer b).cfgEndpoint = s.cfgEndpoint := rfl
@[simp] theorem State.offer_cfgTSend (b : List Byte) : (s.offer b).cfgTSend = s.cfgTSend := rfl
@[simp] theorem State.offer_cfgTRecv (b : List Byte) : (s.offer b).cfgTRecv = s.cfgTRecv := rfl
@[simp] theorem State.offer_phase (b : List Byte) : (s.offer b).phase = s.phase := rfl
@[simp] theorem State.offer_inp (b : List Byte) : (s.offer b).inp = s.inp := rfl
@[simp] theorem State.offer_lastOutcome (b : List Byte) : (s.offer b).lastOutcome = s.lastOutcome := rfl
@[simp] theorem State.offer_txbuf (b : List Byte) : (s.offer b).txbuf = s.txbuf := rfl
@[simp] theorem State.offer_rxbuf (b : List Byte) : (s.offer b).rxbuf = s.rxbuf := rfl
@[simp] theorem State.offer_port (b : List Byte) : (s.offer b).port = s.port := rfl
@[simp] theorem State.offer_queue (b : List Byte) : (s.offer b).queue = s.queue := rfl
@[simp] theorem State.offer_sent (b : List Byte) : (s.offer b).sent = s.sent ++ [⟨s.cfgEndpoint, b, s.port.send⟩] := rfl
@[simp] theorem State.offer_calls (b : List Byte) : (s.offer b).calls = s.calls := rfl
@[simp] theorem State.offer_initAnswer (b : List Byte) : (s.offer b).initAnswer = s.initAnswer := rfl
@[simp] theorem State.offer_draws (b : List Byte) : (s.offer b).draws = s.draws := rfl

/-! `State.failCycle` -/

@[simp] theorem State.failCycle_ready (o : LastOutcome) : (s.failCycle o).ready = false := rfl
@[simp] theorem State.failCycle_lostPackets (o : LastOutcome) : (s.failCycle o).lostPackets = s.lostPackets := rfl
@[simp] theorem State.failCycle_cmdLatch (o : LastOutcome) : (s.failCycle o).cmdLatch = s.cmdLatch := rfl
@[simp] theorem State.failCycle_fbLatch (o : LastOutcome) : (s.failCycle o).fbLatch = s.fbLatch := rfl
@[simp] theorem State.failCycle_positionFeedback (o : LastOutcome) : (s.failCycle o).positionFeedback = s.positionFeedback := rfl
@[simp] theorem State.failCycle_velocityFeedback (o : LastOutcome) : (s.failCycle o).velocityFeedback = s.velocityFeedback := rfl
@[simp] theorem State.failCycle_din (o : LastOutcome) : (s.failCycle o).din = s.din := rfl
@[simp] theorem State.failCycle_tstate (o : LastOutcome) : (s.failCycle o).tstate = s.tstate := rfl
@[simp] theorem State.failCycle_cfgEndpoint (o : LastOutcome) : (s.failCycle o).cfgEndpoint = s.cfgEndpoint := rfl
@[simp] theorem State.failCycle_cfgTSend (o : LastOutcome) : (s.failCycle o).cfgTSend = s.cfgTSend := rfl
@[simp] theorem State.failCycle_cfgTRecv (o : LastOutcome) : (s.failCycle o).cfgTRecv = s.cfgTRecv := rfl
@[simp] theorem State.failCycle_phase (o : LastOutcome) : (s.failCycle o).phase = .idle := rfl
@[simp] theorem State.failCycle_inp (o : LastOutcome) : (s.failCycle o).inp = s.inp := rfl
@[simp] theorem State.failCycle_lastOutcome (o : LastOutcome) : (s.failCycle o).lastOutcome = o := rfl
@[simp] theorem State.failCycle_txbuf (o : LastOutcome) : (s.failCycle o).txbuf = s.txbuf := rfl
@[simp] theorem State.failCycle_rxbuf (o : LastOutcome) : (s.failCycle o).rxbuf = s.rxbuf := rfl
@[simp] theorem State.failCycle_port (o : LastOutcome) : (s.failCycle o).port = s.port := rfl
@[simp] theorem State.failCycle_queue (o : LastOutcome) : (s.failCycle o).queue = s.queue := rfl
@[simp] theorem State.failCycle_sent (o : LastOutcome) : (s.failCycle o).sent = s.sent := rfl
@[simp] theorem State.failCycle_calls (o : LastOutcome) : (s.failCycle o).calls = s.calls := rfl
@[simp] theorem State.failCycle_initAnswer (o : LastOutcome) : (s.failCycle o).initAnswer = s.initAnswer := rfl
@[simp] theorem State.failCycle_draws (o : LastOutcome) : (s.failCycle o).draws = s.draws := rfl

/-! `State.sampleInputs` -/

@[simp] theorem State.sampleInputs_ready : s.sampleInputs.ready = s.ready := rfl
@[simp] theorem State.sampleInputs_lostPackets : s.sampleInputs.lostPackets = s.lostPackets := rfl
@[simp] theorem State.sampleInputs_cmdLatch : s.sampleInputs.cmdLatch = s.cmdLatch := rfl
@[simp] theorem State.sampleInputs_fbLatch : s.sampleInputs.fbLatch = s.fbLatch := rfl
@[simp] theorem State.sampleInputs_positionFeedback : s.sampleInputs.positionFeedback = s.positionFeedback := rfl
@[simp] theorem State.sampleInputs_velocityFeedback : s.sampleInputs.velocityFeedback = s.velocityFeedback := rfl
@[simp] theorem State.sampleInputs_din : s.sampleInputs.din = s.din := rfl
@[simp] theorem State.sampleInputs_tstate : s.sampleInputs.tstate = s.tstate := rfl
@[simp] theorem State.sampleInputs_cfgEndpoint : s.sampleInputs.cfgEndpoint = s.cfgEndpoint := rfl
@[simp] theorem State.sampleInputs_cfgTSend : s.sampleInputs.cfgTSend = s.cfgTSend := rfl
@[simp] theorem State.sampleInputs_cfgTRecv : s.sampleInputs.cfgTRecv = s.cfgTRecv := rfl
@[simp] theorem State.sampleInputs_phase : s.sampleInputs.phase = .build := rfl
@[simp] theorem State.sampleInputs_inp : s.sampleInputs.inp = s.port.inputs := rfl
@[simp] theorem State.sampleInputs_lastOutcome : s.sampleInputs.lastOutcome = s.lastOutcome := rfl
@[simp] theorem State.sampleInputs_txbuf : s.sampleInputs.txbuf = s.txbuf := rfl
@[simp] theorem State.sampleInputs_rxbuf : s.sampleInputs.rxbuf = s.rxbuf := rfl
@[simp] theorem State.sampleInputs_port : s.sampleInputs.port = s.port := rfl
@[simp] theorem State.sampleInputs_queue : s.sampleInputs.queue = s.queue := rfl
@[simp] theorem State.sampleInputs_sent : s.sampleInputs.sent = s.sent := rfl
@[simp] theorem State.sampleInputs_calls : s.sampleInputs.calls = s.calls := rfl
@[simp] theorem State.sampleInputs_initAnswer : s.sampleInputs.initAnswer = s.initAnswer := rfl
@[simp] theorem State.sampleInputs_draws : s.sampleInputs.draws = s.draws := rfl

/-! `State.transmit` -/

@[simp] theorem State.transmit_ready : s.transmit.ready = s.ready := rfl
@[simp] theorem State.transmit_lostPackets : s.transmit.lostPackets = s.lostPackets + 1 := rfl
@[simp] theorem State.transmit_cmdLatch : s.transmit.cmdLatch = s.cmdLatch := rfl
@[simp] theorem State.transmit_fbLatch : s.transmit.fbLatch = s.fbLatch := rfl
@[simp] theorem State.transmit_positionFeedback : s.transmit.positionFeedback = s.positionFeedback := rfl
@[simp] theorem State.transmit_velocityFeedback : s.transmit.velocityFeedback = s.velocityFeedback := rfl
@[simp] theorem State.transmit_din : s.transmit.din = s.din := rfl
@[simp] theorem State.transmit_tstate : s.transmit.tstate = s.tstate := rfl
@[simp] theorem State.transmit_cfgEndpoint : s.transmit.cfgEndpoint = s.cfgEndpoint := rfl
@[simp] theorem State.transmit_cfgTSend : s.transmit.cfgTSend = s.cfgTSend := rfl
@[simp] theorem State.transmit_cfgTRecv : s.transmit.cfgTRecv = s.cfgTRecv := rfl
@[simp] theorem State.transmit_phase : s.transmit.phase = s.phase := rfl
@[simp] theorem State.transmit_inp : s.transmit.inp = s.inp := rfl
@[simp] theorem State.transmit_lastOutcome : s.transmit.lastOutcome = s.lastOutcome := rfl
@[simp] theorem State.transmit_txbuf : s.transmit.txbuf = encodeCmd s.cmdLatch := by simp only [State.transmit]
@[simp] theorem State.transmit_rxbuf : s.transmit.rxbuf = s.rxbuf := rfl
@[simp] theorem State.transmit_port : s.transmit.port = s.port := rfl
@[simp] theorem State.transmit_queue : s.transmit.queue = s.queue := rfl
@[simp] theorem State.transmit_sent : s.transmit.sent = s.sent ++ [⟨s.cfgEndpoint, encodeCmd s.cmdLatch, s.port.send⟩] := rfl
@[simp] theorem State.transmit_calls : s.transmit.calls = s.calls := rfl
@[simp] theorem State.transmit_initAnswer : s.transmit.initAnswer = s.initAnswer := rfl
@[simp] theorem State.transmit_draws : s.transmit.draws = s.draws := rfl

/-! `State.acceptFb` -/

@[simp] theorem State.acceptFb_ready (f : FeedbackFrame) : (s.acceptFb f).ready = hasFlag f.control Config.flagReady := rfl
@[simp] theorem State.acceptFb_lostPackets (f : FeedbackFrame) : (s.acceptFb f).lostPackets = s.lostPackets - 1 := rfl
@[simp] theorem State.acceptFb_cmdLatch (f : FeedbackFrame) : (s.acceptFb f).cmdLatch = s.cmdLatch := rfl
@[simp] theorem State.acceptFb_fbLatch (f : FeedbackFrame) : (s.acceptFb f).fbLatch = f := rfl
@[simp] theorem State.acceptFb_positionFeedback (f : FeedbackFrame) : (s.acceptFb f).positionFeedback = positionOutputs s.draws f s.inp.scale := rfl
@[simp] theorem State.acceptFb_velocityFeedback (f : FeedbackFrame) : (s.acceptFb f).velocityFeedback = velocityOutputs s.draws f s.inp.scale := rfl
@[simp] theorem State.acceptFb_din (f : FeedbackFrame) : (s.acceptFb f).din = unpackIo f.io := rfl
@[simp] theorem State.acceptFb_tstate (f : FeedbackFrame) : (s.acceptFb f).tstate = s.tstate := rfl
@[simp] theorem State.acceptFb_cfgEndpoint (f : FeedbackFrame) : (s.acceptFb f).cfgEndpoint = s.cfgEndpoint := rfl
@[simp] theorem State.acceptFb_cfgTSend (f : FeedbackFrame) : (s.acceptFb f).cfgTSend = s.cfgTSend := rfl
@[simp] theorem State.acceptFb_cfgTRecv (f : FeedbackFrame) : (s.acceptFb f).cfgTRecv = s.cfgTRecv := rfl
@[simp] theorem State.acceptFb_phase (f : FeedbackFrame) : (s.acceptFb f).phase = .idle := rfl
@[simp] theorem State.acceptFb_inp (f : FeedbackFrame) : (s.acceptFb f).inp = s.inp := rfl
@[simp] theorem State.acceptFb_lastOutcome (f : FeedbackFrame) : (s.acceptFb f).lastOutcome = .ok := rfl
@[simp] theorem State.acceptFb_txbuf (f : FeedbackFrame) : (s.acceptFb f).txbuf = s.txbuf := rfl
@[simp] theorem State.acceptFb_rxbuf (f : FeedbackFrame) : (s.acceptFb f).rxbuf = s.rxbuf := rfl
@[simp] theorem State.acceptFb_port (f : FeedbackFrame) : (s.acceptFb f).port = s.port := rfl
@[simp] theorem State.acceptFb_queue (f : FeedbackFrame) : (s.acceptFb f).queue = s.queue := rfl
@[simp] theorem State.acceptFb_sent (f : FeedbackFrame) : (s.acceptFb f).sent = s.sent := rfl
@[simp] theorem State.acceptFb_calls (f : FeedbackFrame) : (s.acceptFb f).calls = s.calls := rfl
@[simp] theorem State.acceptFb_initAnswer (f : FeedbackFrame) : (s.acceptFb f).initAnswer = s.initAnswer := rfl
@[simp] theorem State.acceptFb_draws (f : FeedbackFrame) : (s.acceptFb f).draws = s.draws + 1 := rfl

/-! `State.initialise` -/

@[simp] theorem State.initialise_ready : s.initialise.ready = false := rfl
@[simp] theorem State.initialise_lostPackets : s.initialise.lostPackets = 0 := rfl
@[simp] theorem State.initialise_cmdLatch : s.initialise.cmdLatch = CommandFrame.zero := rfl
@[simp] theorem State.initialise_fbLatch : s.initialise.fbLatch = FeedbackFrame.zero := rfl
@[simp] theorem State.initialise_positionFeedback : s.initialise.positionFeedback = Axes.all 0 := rfl
@[simp] theorem State.initialise_velocityFeedback : s.initialise.velocityFeedback = Axes.all 0 := rfl
@[simp] theorem State.initialise_din : s.initialise.din = Octet.all false := rfl
@[simp] theorem State.initialise_tstate : s.initialise.tstate = .opened := rfl
@[simp] theorem State.initialise_cfgEndpoint : s.initialise.cfgEndpoint = s.port.endpoint := rfl
@[simp] theorem State.initialise_cfgTSend : s.initialise.cfgTSend = s.port.tSend := rfl
@[simp] theorem State.initialise_cfgTRecv : s.initialise.cfgTRecv = s.port.tRecv := rfl
@[simp] theorem State.initialise_phase : s.initialise.phase = .idle := rfl
@[simp] theorem State.initialise_inp : s.initialise.inp = s.inp := rfl
@[simp] theorem State.initialise_lastOutcome : s.initialise.lastOutcome = .none := rfl
@[simp] theorem State.initialise_txbuf : s.initialise.txbuf = s.txbuf := rfl
@[simp] theorem State.initialise_rxbuf : s.initialise.rxbuf = s.rxbuf := rfl
@[simp] theorem State.initialise_port : s.initialise.port = s.port := rfl
@[simp] theorem State.initialise_queue : s.initialise.queue = s.queue := rfl
@[simp] theorem State.initialise_sent : s.initialise.sent = s.sent := rfl
@[simp] theorem State.initialise_calls : s.initialise.calls = s.calls := rfl
@[simp] theorem State.initialise_initAnswer : s.initialise.initAnswer = .initOk := rfl
@[simp] theorem State.initialise_draws : s.initialise.draws = s.draws := rfl

/-! `State.release`: what SHUTDOWN determines, and what it leaves (R134, R43) -/

@[simp] theorem State.release_tstate : s.release.tstate = .closed := rfl
@[simp] theorem State.release_phase : s.release.phase = .idle := rfl
@[simp] theorem State.release_queue : s.release.queue = [] := rfl
@[simp] theorem State.release_draws : s.release.draws = s.draws + 1 := rfl
@[simp] theorem State.release_txbuf : s.release.txbuf = s.txbuf := rfl
@[simp] theorem State.release_rxbuf : s.release.rxbuf = s.rxbuf := rfl
@[simp] theorem State.release_port : s.release.port = s.port := rfl
@[simp] theorem State.release_sent : s.release.sent = s.sent := rfl
@[simp] theorem State.release_calls : s.release.calls = s.calls := rfl
@[simp] theorem State.release_initAnswer : s.release.initAnswer = s.initAnswer := rfl

/-! `State.recvTake`: only the queue changes (R56) -/

@[simp] theorem State.recvTake_ready : s.recvTake.ready = s.ready := by unfold State.recvTake; split <;> rfl
@[simp] theorem State.recvTake_lostPackets : s.recvTake.lostPackets = s.lostPackets := by unfold State.recvTake; split <;> rfl
@[simp] theorem State.recvTake_cmdLatch : s.recvTake.cmdLatch = s.cmdLatch := by unfold State.recvTake; split <;> rfl
@[simp] theorem State.recvTake_fbLatch : s.recvTake.fbLatch = s.fbLatch := by unfold State.recvTake; split <;> rfl
@[simp] theorem State.recvTake_positionFeedback : s.recvTake.positionFeedback = s.positionFeedback := by unfold State.recvTake; split <;> rfl
@[simp] theorem State.recvTake_velocityFeedback : s.recvTake.velocityFeedback = s.velocityFeedback := by unfold State.recvTake; split <;> rfl
@[simp] theorem State.recvTake_din : s.recvTake.din = s.din := by unfold State.recvTake; split <;> rfl
@[simp] theorem State.recvTake_tstate : s.recvTake.tstate = s.tstate := by unfold State.recvTake; split <;> rfl
@[simp] theorem State.recvTake_cfgEndpoint : s.recvTake.cfgEndpoint = s.cfgEndpoint := by unfold State.recvTake; split <;> rfl
@[simp] theorem State.recvTake_cfgTSend : s.recvTake.cfgTSend = s.cfgTSend := by unfold State.recvTake; split <;> rfl
@[simp] theorem State.recvTake_cfgTRecv : s.recvTake.cfgTRecv = s.cfgTRecv := by unfold State.recvTake; split <;> rfl
@[simp] theorem State.recvTake_phase : s.recvTake.phase = s.phase := by unfold State.recvTake; split <;> rfl
@[simp] theorem State.recvTake_inp : s.recvTake.inp = s.inp := by unfold State.recvTake; split <;> rfl
@[simp] theorem State.recvTake_lastOutcome : s.recvTake.lastOutcome = s.lastOutcome := by unfold State.recvTake; split <;> rfl
@[simp] theorem State.recvTake_txbuf : s.recvTake.txbuf = s.txbuf := by unfold State.recvTake; split <;> rfl
@[simp] theorem State.recvTake_rxbuf : s.recvTake.rxbuf = s.rxbuf := by unfold State.recvTake; split <;> rfl
@[simp] theorem State.recvTake_port : s.recvTake.port = s.port := by unfold State.recvTake; split <;> rfl
@[simp] theorem State.recvTake_sent : s.recvTake.sent = s.sent := by unfold State.recvTake; split <;> rfl
@[simp] theorem State.recvTake_calls : s.recvTake.calls = s.calls := by unfold State.recvTake; split <;> rfl
@[simp] theorem State.recvTake_initAnswer : s.recvTake.initAnswer = s.initAnswer := by unfold State.recvTake; split <;> rfl
@[simp] theorem State.recvTake_draws : s.recvTake.draws = s.draws := by unfold State.recvTake; split <;> rfl

@[simp] theorem State.recvTake_queue : s.recvTake.queue = queueAfterRecv s.port.recv s.queue := by
  unfold State.recvTake queueAfterRecv
  split <;> simp_all

end Sys2Proof.Machine
end

