-- ==== Sys2Proof/Laws/Ops.lean ====
section
/-!
SUPPORT. What each shared operation can do, said once: the transport primitives, the phases, a whole exchange, the
fetch and the step.
-/

namespace Sys2Proof.Machine

variable (s : State)

/-! ## Recv (R56) -/

theorem recvAnswer_eq_datagram_iff (b : List Byte) :
    s.recvAnswer = .datagram b ↔ s.port.recv = .deliver ∧ s.queue.head? = some b := by
  unfold State.recvAnswer
  split
  · simp_all
  · split <;> simp_all

/-- Recv's answer depends on nothing but the drawn answer and the queue. -/
theorem recvAnswer_congr {s t : State} (hr : t.port.recv = s.port.recv) (hq : t.queue = s.queue) :
    t.recvAnswer = s.recvAnswer := by
  unfold State.recvAnswer
  rw [hr, hq]

theorem recvAnswer_eq_timeout_iff :
    s.recvAnswer = .timeout ↔ s.port.recv = .timeout ∨ s.queue = [] := by
  unfold State.recvAnswer
  split
  · simp_all
  · split <;> simp_all

/-- At most one datagram leaves the queue (R57). -/
theorem queueAfterRecv_cases (d : RecvDraw) (q : List (List Byte)) :
    queueAfterRecv d q = q ∨ ∃ b, q = b :: queueAfterRecv d q := by
  cases d <;> cases q <;> simp [queueAfterRecv]

/-! ## The phases -/

/-- BUILD writes the frame of the selected kind (R101 to R105). -/
theorem buildKind_eq (k : FrameKind) (e : Bool) :
    buildKind k e s = s.latchCmd (kindFrame k s.draws e s.inp) := by cases k <;> rfl

theorem sendPhase_of_fail (h : s.port.send = .fail) : s.sendPhase = s.transmit.failCycle .sendFail := by
  simp [State.sendPhase, h]

theorem sendPhase_of_ok (h : s.port.send = .ok) : s.sendPhase = s.transmit.enter .recv := by
  simp [State.sendPhase, h]

theorem recvPhase_of_timeout (h : s.recvAnswer = .timeout) :
    s.recvPhase = s.recvTake.failCycle .recvTimeout := by simp [State.recvPhase, h]

theorem recvPhase_of_mismatch {b : List Byte} (h : s.recvAnswer = .datagram b) (hb : b.length ≠ 26) :
    s.recvPhase = ({ s.recvTake with rxbuf := b } : State).failCycle .sizeMismatch := by
  simp [State.recvPhase, h, (decodeFb_eq_sizeMismatch_iff b).2 hb]

theorem recvPhase_of_frame {b : List Byte} (h : s.recvAnswer = .datagram b) (hb : b.length = 26) :
    s.recvPhase = ({ s.recvTake with rxbuf := b } : State).enter .update := by
  simp [State.recvPhase, h, (decodeFb_eq_ok_iff b _).2 ⟨hb, rfl⟩]

/-! ## A whole exchange (R112 to R120) -/

/-- The state in which a sent frame's reply is awaited. -/
def State.awaiting (s : State) : State := s.transmit.enter .recv

theorem exchange_of_sendFail (h : s.port.send = .fail) : s.exchange = s.transmit.failCycle .sendFail := by
  simp [State.exchange, sendPhase_of_fail s h]

theorem exchange_of_sendOk (h : s.port.send = .ok) : s.exchange = s.awaiting.receive := by
  simp [State.exchange, sendPhase_of_ok s h, State.awaiting]

theorem receive_of_timeout (h : s.recvAnswer = .timeout) : s.receive = s.recvTake.failCycle .recvTimeout := by
  simp [State.receive, recvPhase_of_timeout s h]

theorem receive_of_mismatch {b : List Byte} (h : s.recvAnswer = .datagram b) (hb : b.length ≠ 26) :
    s.receive = ({ s.recvTake with rxbuf := b } : State).failCycle .sizeMismatch := by
  simp [State.receive, recvPhase_of_mismatch s h hb]

theorem receive_of_frame {b : List Byte} {f : FeedbackFrame} (h : s.recvAnswer = .datagram b)
    (hf : decodeFb b = .ok f) :
    s.receive = (({ s.recvTake with rxbuf := b } : State).enter .update).acceptFb f := by
  simp [State.receive, recvPhase_of_frame s h ((decodeFb_eq_ok_iff b f).1 hf).1, State.updatePhase, State.enter, hf]

/-- The four ways a receive ends (R115 to R117, R142). -/
theorem receive_cases :
    (s.recvAnswer = .timeout ∧ s.receive = s.recvTake.failCycle .recvTimeout) ∨
    (∃ b, s.recvAnswer = .datagram b ∧ b.length ≠ 26 ∧
      s.receive = ({ s.recvTake with rxbuf := b } : State).failCycle .sizeMismatch) ∨
    (∃ b f, s.recvAnswer = .datagram b ∧ decodeFb b = .ok f ∧
      s.receive = (({ s.recvTake with rxbuf := b } : State).enter .update).acceptFb f) := by
  cases h : s.recvAnswer with
  | timeout => exact .inl ⟨rfl, receive_of_timeout s h⟩
  | datagram b =>
    cases hf : decodeFb b with
    | sizeMismatch =>
      have hb := (decodeFb_eq_sizeMismatch_iff b).1 hf
      exact .inr (.inl ⟨b, rfl, hb, receive_of_mismatch s h hb⟩)
    | ok f => exact .inr (.inr ⟨b, f, rfl, hf, receive_of_frame s h hf⟩)

/-! ## CYCLE (R93) -/

/-- The state of a CYCLE when its frame is built. -/
def State.built (s : State) : State := s.sampleInputs.latchCmd s.cycleFrame

@[simp] theorem State.built_port : s.built.port = s.port := rfl
@[simp] theorem State.built_queue : s.built.queue = s.queue := rfl
@[simp] theorem State.built_sent : s.built.sent = s.sent := rfl
@[simp] theorem State.built_calls : s.built.calls = s.calls := rfl
@[simp] theorem State.built_cmdLatch : s.built.cmdLatch = s.cycleFrame := rfl
@[simp] theorem State.built_lostPackets : s.built.lostPackets = s.lostPackets := rfl
@[simp] theorem State.built_fbLatch : s.built.fbLatch = s.fbLatch := rfl
@[simp] theorem State.built_din : s.built.din = s.din := rfl
@[simp] theorem State.built_positionFeedback : s.built.positionFeedback = s.positionFeedback := rfl
@[simp] theorem State.built_velocityFeedback : s.built.velocityFeedback = s.velocityFeedback := rfl
@[simp] theorem State.built_inp : s.built.inp = s.port.inputs := rfl
@[simp] theorem State.built_tstate : s.built.tstate = s.tstate := rfl
@[simp] theorem State.built_cfgEndpoint : s.built.cfgEndpoint = s.cfgEndpoint := rfl
@[simp] theorem State.built_cfgTSend : s.built.cfgTSend = s.cfgTSend := rfl
@[simp] theorem State.built_cfgTRecv : s.built.cfgTRecv = s.cfgTRecv := rfl
@[simp] theorem State.built_initAnswer : s.built.initAnswer = s.initAnswer := rfl
@[simp] theorem State.built_rxbuf : s.built.rxbuf = s.rxbuf := rfl
@[simp] theorem State.built_draws : s.built.draws = s.draws + 1 := rfl

theorem buildPhase_sampleInputs : s.sampleInputs.buildPhase = s.built := by
  simp [State.buildPhase, buildKind_eq, State.built, State.cycleFrame]

theorem cycleBody_eq : s.cycleBody = s.built.exchange := by
  simp [State.cycleBody, buildPhase_sampleInputs]

theorem execCycle_of_opened (h : s.tstate = .opened) : execCycle s = .next s.cycleBody := by
  simp [execCycle, h]

theorem execCycle_eq_next_iff (t : State) : execCycle s = .next t ↔ s.tstate = .opened ∧ s.cycleBody = t := by
  unfold execCycle
  split <;> simp_all

/-- The four ways a CYCLE that does not fault ends (R93, R114, R116, R117). -/
theorem execCycle_cases {t : State} (h : execCycle s = .next t) :
    (s.port.send = .fail ∧ t = s.built.transmit.failCycle .sendFail) ∨
    (s.port.send = .ok ∧ (s.port.recv = .timeout ∨ s.queue = []) ∧
      t = s.built.awaiting.recvTake.failCycle .recvTimeout) ∨
    (s.port.send = .ok ∧ ∃ b, s.port.recv = .deliver ∧ s.queue.head? = some b ∧ b.length ≠ 26 ∧
      t = ({ s.built.awaiting.recvTake with rxbuf := b } : State).failCycle .sizeMismatch) ∨
    (s.port.send = .ok ∧ ∃ b f, s.port.recv = .deliver ∧ s.queue.head? = some b ∧ decodeFb b = .ok f ∧
      t = (({ s.built.awaiting.recvTake with rxbuf := b } : State).enter .update).acceptFb f) := by
  obtain ⟨-, rfl⟩ := (execCycle_eq_next_iff s t).1 h
  rw [cycleBody_eq]
  cases hs : s.port.send with
  | fail => exact .inl ⟨rfl, exchange_of_sendFail s.built hs⟩
  | ok =>
    rw [exchange_of_sendOk s.built hs]
    have hd := recvAnswer_eq_datagram_iff s.built.awaiting
    have ht := recvAnswer_eq_timeout_iff s.built.awaiting
    simp only [State.awaiting, State.enter_port, State.enter_queue, State.transmit_port, State.transmit_queue,
      State.built_port, State.built_queue] at hd ht
    rcases receive_cases s.built.awaiting with ⟨h1, h2⟩ | ⟨b, h1, h2, h3⟩ | ⟨b, f, h1, h2, h3⟩
    · exact .inr (.inl ⟨rfl, ht.1 h1, h2⟩)
    · exact .inr (.inr (.inl ⟨rfl, b, ((hd b).1 h1).1, ((hd b).1 h1).2, h2, h3⟩))
    · exact .inr (.inr (.inr ⟨rfl, b, f, ((hd b).1 h1).1, ((hd b).1 h1).2, h2, h3⟩))

/-! ## The fetch and the step -/

/-- Clearing one acknowledgment and setting the earlier ones selects each configuration kind (R99). -/
theorem frameKind_of_acks (c : Byte) :
    frameKind false (c &&& ~~~Config.flagDirsetup) = .dirsetup ∧
    frameKind false ((c ||| Config.flagDirsetup) &&& ~~~Config.flagAccel) = .accel ∧
    frameKind false ((c ||| Config.flagDirsetup ||| Config.flagAccel) &&& ~~~Config.flagPwmfreq) = .pwmfreq ∧
    frameKind false (c ||| Config.flagDirsetup ||| Config.flagAccel ||| Config.flagPwmfreq) = .idle := by
  revert c; decide +kernel

/-- A placed instruction is the one the machine fetches next (log 2); for a feedback frame this is the round trip
of its datagram, which is stated apart. -/
theorem fetch_placeInstr (i : Instr) (hi : ∀ f, i ≠ .fb f) : ∃ t, fetch (s.placeInstr i) = .run i t := by
  obtain ⟨hdir, hacc, hpwm, hidle⟩ := frameKind_of_acks s.fbLatch.control
  cases i with
  | cmdRun e => exact ⟨_, rfl⟩
  | cmdDirsetup e => exact ⟨_, by simp [fetch, State.placeInstr, State.placeKind, hdir, kindInstr]; rfl⟩
  | cmdAccel e => exact ⟨_, by simp [fetch, State.placeInstr, State.placeKind, hacc, kindInstr]; rfl⟩
  | cmdPwmfreq e => exact ⟨_, by simp [fetch, State.placeInstr, State.placeKind, hpwm, kindInstr]; rfl⟩
  | cmdIdle e => exact ⟨_, by simp [fetch, State.placeInstr, State.placeKind, hidle, kindInstr]; rfl⟩
  | fb f => exact absurd rfl (hi f)
  | init => exact ⟨_, rfl⟩
  | cycle => exact ⟨_, rfl⟩
  | shutdown => exact ⟨_, rfl⟩

/-- A command kind that runs writes its frame (R101 to R105). -/
theorem exec_kindInstr (k : FrameKind) (e : Bool) :
    exec (kindInstr k e) s = .next (s.latchCmd (kindFrame k s.draws e s.inp)) := by
  cases k <;> rfl

/-- Everything a step that answers a next state can have done. -/
theorem step_cases {t : State} (h : step s = .next t) :
    (s.phase = .idle ∧ s.calls = [] ∧ t = s) ∨
    (∃ c rest i, s.phase = .idle ∧ s.calls = c :: rest ∧ decodeOp c.op = some i ∧
      exec i (s.present c rest) = .next t) ∨
    (s.phase = .sample ∧ t = s.sampleInputs) ∨
    (s.phase = .build ∧
      t = s.latchCmd (kindFrame (frameKind s.ready s.fbLatch.control) s.draws s.inp.enable s.inp)) ∨
    (s.phase = .send ∧ t = s.sendPhase) ∨
    (s.phase = .recv ∧ t = s.recvPhase) ∨
    (s.phase = .update ∧ t = s.updatePhase) := by
  unfold step fetch at h
  cases hp : s.phase with
  | idle =>
    cases hc : s.calls with
    | nil => simp_all
    | cons c rest =>
      cases hd : decodeOp c.op with
      | none => simp_all
      | some i => exact .inr (.inl ⟨c, rest, i, rfl, rfl, hd, by simpa [hp, hc, hd] using h⟩)
  | sample => simp_all
  | build => simp_all [exec_kindInstr]
  | send => simp_all
  | recv => simp_all
  | update =>
    cases hf : decodeFb s.rxbuf with
    | ok f => simp_all [exec, execFb, State.updatePhase]
    | sizeMismatch => simp_all [State.updatePhase]

/-- The operation a select code names is INIT, CYCLE or SHUTDOWN (R82). -/
theorem decodeOp_cases {op : BitVec 2} {i : Instr} (h : decodeOp op = some i) :
    i = .init ∨ i = .cycle ∨ i = .shutdown := by
  unfold decodeOp at h
  split at h
  · simp_all
  · split at h
    · simp_all
    · split at h <;> simp_all

/-- One step of a run. -/
theorem run_succ_of_step {n : Nat} {s t : State} {r : Host.Outcome State Fault Refusal} (h : step s = .next t)
    (hr : core.run n t = r) : core.run (n + 1) s = r := by
  have hc : core.step s = .next t := h
  simp only [Host.Core.run, hc]
  exact hr

end Sys2Proof.Machine
end

