-- ==== Sys2Proof/Laws/PerInstr.lean ====
section
/-!
SUPPORT. Statements made per instruction: the code an instruction is encoded as is one the decoder may accept.
-/

namespace Sys2Proof.Laws.EncodesWellFormed

/-- The encoding of `i` is a 39-byte datagram with a control byte that is not reserved, a 26-byte datagram, or a
select code other than 00 (R76, R78, R82). -/
def Statement (i : Instr) : Prop := (encode i).wellFormed = true

/-- A frame kind's control byte is never a reserved one (R76, R77). -/
theorem kindOf_kindBits (k : FrameKind) (e : Bool) : kindOf (kindBits k ||| enableBit e) = some k := by
  cases k <;> cases e <;> decide +kernel

theorem encodeKind_wellFormed (k : FrameKind) (e : Bool) : (Code.datagram (encodeKind k e)).wellFormed = true := by
  simp [Code.wellFormed, encodeKind, kindOf_kindBits, Config.cmdWireLen]

theorem cmdRun (e : Bool) : Statement (.cmdRun e) := encodeKind_wellFormed .run e

theorem cmdDirsetup (e : Bool) : Statement (.cmdDirsetup e) := encodeKind_wellFormed .dirsetup e

theorem cmdAccel (e : Bool) : Statement (.cmdAccel e) := encodeKind_wellFormed .accel e

theorem cmdPwmfreq (e : Bool) : Statement (.cmdPwmfreq e) := encodeKind_wellFormed .pwmfreq e

theorem cmdIdle (e : Bool) : Statement (.cmdIdle e) := encodeKind_wellFormed .idle e

theorem fb (frame : FeedbackFrame) : Statement (.fb frame) := by
  simp [Statement, encode, Code.wellFormed, Config.fbLen]

theorem init : Statement .init := by simp [Statement, encode, Code.wellFormed]

theorem cycle : Statement .cycle := by simp [Statement, encode, Code.wellFormed]

theorem shutdown : Statement .shutdown := by simp [Statement, encode, Code.wellFormed]

end Sys2Proof.Laws.EncodesWellFormed
end

