-- ==== Sys2Proof/Tests/Slice0.lean ====
section
/-!
SUPPORT. Tests: expected results are those of spec/95_test_vectors.md and of the encoding tables of
spec/30_encoding.md, named in each comment.
-/

namespace Sys2Proof.Tests

open Sys2Proof.Machine

set_option Elab.async false

/-! ## Well-formedness: a term each check refuses -/

/-- R69: the parameters of this model. -/
theorem test_flags_well_formed :
    flagsWellFormed Config.flagDirsetup Config.flagAccel Config.flagPwmfreq Config.flagReady Config.flagEnable = true := by
  decide +kernel

/-- R69: DIRSETUP with two bits, with none, and two equal flags. -/
theorem test_flags_ill_formed :
    flagsWellFormed 0x03 0x02 0x04 0x40 0x80 = false ∧ flagsWellFormed 0x01 0x01 0x04 0x40 0x80 = false ∧
      flagsWellFormed 0x00 0x02 0x04 0x40 0x80 = false := by decide +kernel

/-- R76, R79: a reserved control byte, io bit 6, and a field each configuration kind does not carry. -/
theorem test_frames_ill_formed :
    ({ CommandFrame.zero with control := 0x08 } : CommandFrame).wellFormed = false ∧
    ({ CommandFrame.zero with control := 0x40, io := 0x40 } : CommandFrame).wellFormed = false ∧
    ({ CommandFrame.zero with control := 0x01, pwm := Channels.all 1 } : CommandFrame).wellFormed = false ∧
    ({ CommandFrame.zero with control := 0x82, vel := Axes.all 1 } : CommandFrame).wellFormed = false ∧
    ({ CommandFrame.zero with control := 0x04, pos := Axes.all 1 } : CommandFrame).wellFormed = false ∧
    ({ CommandFrame.zero with control := 0x80, io := 1 } : CommandFrame).wellFormed = false := by decide +kernel

/-- R79, R80, R82: a wrong length, a reserved control byte, and select code 00. -/
theorem test_codes_ill_formed :
    (Code.datagram (List.replicate 25 0)).wellFormed = false ∧
    (Code.datagram (0x03 :: List.replicate 38 0)).wellFormed = false ∧
    (Code.select 0).wellFormed = false := by decide +kernel

/-! ## Decoding, each word written out from the encoding tables -/

/-- Twelve zero bytes. -/
def z12 : List Byte := List.replicate 12 0

/-- K-DIR (TV-E2). -/
def kDir : List Byte :=
  [0x81, 0x00] ++ z12 ++ [0x64, 0, 0, 0, 0xC8, 0, 0, 0, 0xFF, 0xFF, 0xFF, 0xFF] ++ z12 ++ [0x6A]

/-- K-ACC (TV-E3). -/
def kAcc : List Byte :=
  [0x82, 0x00] ++ z12 ++ [0x50, 0xC3, 0, 0, 0xB0, 0x4F, 0, 0, 0x38, 0xFF, 0xFF, 0xFF] ++ z12 ++ [0x6E]

/-- K-PWM (TV-E4). -/
def kPwm : List Byte :=
  [0x84, 0x00, 0xE8, 0x03, 0xD0, 0x07, 0x88, 0x13, 0x10, 0x27, 0x20, 0x4E, 0x70, 0x11] ++ z12 ++ z12 ++ [0x5C]

/-- K-IDLE (TV-E7). -/
def kIdle : List Byte := [0x80, 0x00] ++ z12 ++ z12 ++ z12 ++ [0xC7]

/-- K-RUN (Part 3). -/
def kRun : List Byte :=
  [0xC0, 0x35, 0, 0, 0xFF, 0x01, 0xFF, 0x03, 0xFF, 0x03, 0, 0, 0x01, 0, 0xDC, 0x05, 0, 0, 0xF8, 0xF8, 0xFF, 0xFF,
    0, 0, 0, 0, 0, 0x40, 0x1C, 0x46, 0, 0, 0xC8, 0xC3, 0, 0, 0xA0, 0xC1, 0xE4]

/-- The feedback datagram of TV-D1. -/
def fbD1 : List Byte :=
  [0x47, 0xA5, 0xD0, 0x07, 0, 0, 0xFF, 0xFF, 0xFF, 0xFF, 0, 0, 0, 0x80, 0, 0, 0x80, 0x3F, 0, 0, 0, 0xBF,
    0, 0, 0xC0, 0x7F]

/-- The frame of TV-D1. -/
def frameD1 : FeedbackFrame :=
  ⟨0x47, 0xA5, ⟨2000, 0xFFFFFFFF, 0x80000000⟩, ⟨0x3F800000, 0xBF000000, 0x7FC00000⟩⟩

/-- `FB{ctl=c}`: the byte `c` followed by 25 zero bytes. -/
def fbCtl (c : Byte) : List Byte := c :: List.replicate 25 0

theorem test_decode_cmdRun : decode (.datagram kRun) = .instr (.cmdRun true) := by decide +kernel

theorem test_decode_cmdDirsetup : decode (.datagram kDir) = .instr (.cmdDirsetup true) := by decide +kernel

theorem test_decode_cmdAccel : decode (.datagram kAcc) = .instr (.cmdAccel true) := by decide +kernel

theorem test_decode_cmdPwmfreq : decode (.datagram kPwm) = .instr (.cmdPwmfreq true) := by decide +kernel

/-- TV-E1: 38 zero bytes and checksum 47 are CMD_IDLE with ENABLE 0. -/
theorem test_decode_cmdIdle :
    decode (.datagram (List.replicate 38 0 ++ [0x47])) = .instr (.cmdIdle false) := by decide +kernel

/-- TV-D1. -/
theorem test_decode_fb : decode (.datagram fbD1) = .instr (.fb frameD1) := by decide +kernel

/-- R82. -/
theorem test_decode_ops :
    decode (.select 0b01#2) = .instr .init ∧ decode (.select 0b10#2) = .instr .cycle ∧
      decode (.select 0b11#2) = .instr .shutdown ∧ decode (.select 0b00#2) = .rejected .opSelectNone := by
  decide +kernel

/-- 2.3: reserved control bytes; 2.4: lengths 25, 27 and 0. -/
theorem test_decode_rejects :
    [0x03, 0x41, 0xC4, 0x7F, 0x08].map (fun c : Byte => decode (.datagram (c :: List.replicate 38 0))) =
      List.replicate 5 (.rejected .reservedControl) ∧
    [25, 27, 0].map (fun n => decode (.datagram (List.replicate n 0))) = List.replicate 3 (.rejected .badLength) := by
  decide +kernel

/-- The table's words: bits 7..0 of a command datagram, the select codes, a 26-byte datagram. -/
theorem test_table_words :
    decodeTableWord 8 0x40 = some (.cmdRun false) ∧ decodeTableWord 312 0x01 = some (.cmdDirsetup false) ∧
      decodeTableWord 8 0x84 = some (.cmdPwmfreq true) ∧ decodeTableWord 8 0x01 = some .init ∧
      decodeTableWord 8 0x02 = some .cycle ∧ decodeTableWord 8 0x03 = some .shutdown ∧
      decodeTableWord 208 0x47 = some (.fb { FeedbackFrame.zero with control := 0x47 }) ∧
      decodeTableWord 8 0x08 = none := by decide +kernel

/-! ## The codec -/

/-- TV-C1 to TV-C7. -/
theorem test_checksum :
    checksum (List.replicate 38 0) = 0x47 ∧ checksum (0x80 :: List.replicate 37 0) = 0xC7 ∧
      checksum (0x01 :: List.replicate 37 0) = 0x46 ∧ checksum (0x47 :: List.replicate 37 0) = 0x00 ∧
      checksum (List.replicate 38 0xFF) = 0x47 ∧ checksum (0xFF :: List.replicate 37 0) = 0xB8 ∧
      checksum (kDir.take 38) = 0x6A := by decide +kernel

/-- TV-E10, with TV-R2: the extreme fields, both ways. -/
theorem test_codec_extremes :
    let c : CommandFrame :=
      ⟨0x80, 0x3F, Channels.all 1023, ⟨0x7FFFFFFF, 0x80000000, 0⟩, ⟨0x7F800000, 0x80000000, 1⟩⟩
    let b : List Byte :=
      [0x80, 0x3F, 0xFF, 3, 0xFF, 3, 0xFF, 3, 0xFF, 3, 0xFF, 3, 0xFF, 3, 0xFF, 0xFF, 0xFF, 0x7F, 0, 0, 0, 0x80,
        0, 0, 0, 0, 0, 0, 0x80, 0x7F, 0, 0, 0, 0x80, 1, 0, 0, 0, 0x86]
    encodeCmd c = b ∧ decodeCmd b = .ok c := by decide +kernel

/-- TV-V1 to TV-V4. -/
theorem test_verify :
    verifyCmd kIdle = true ∧ verifyCmd (0x80 :: List.replicate 37 0 ++ [0x47]) = false ∧
      verifyCmd (0x80 :: List.replicate 37 0) = false ∧ verifyCmd (0x08 :: List.replicate 37 0 ++ [0x4F]) = true := by
  decide +kernel

/-- TV-D8, TV-D9, TV-D6 and TV-R3. -/
theorem test_feedback_codec :
    encodeFb { FeedbackFrame.zero with control := 0x07 } = fbCtl 0x07 ∧ encodeFb frameD1 = fbD1 ∧
      decodeFb kDir = .sizeMismatch ∧ decodeCmd (List.replicate 37 0) = .sizeMismatch := by decide +kernel

/-! ## Conversions (spec/95_test_vectors.md 2.5) -/

theorem test_cvtI32 :
    [(0x4097700000000000#64, 1500), (0xC0A1940000000000#64, -2250), (0x3FE6666666666666#64, 0),
      (0xBFE6666666666666#64, 0), (0x8000000000000000#64, 0), (0x41DFFFFFFFD9999A#64, 2147483647),
      (0xC1E00000001CCCCD#64, -2147483648)].all
      (fun p => decide ((cvtI32 77 (Datum.ofBits64 p.1)).toInt = p.2)) = true := by decide +kernel

/-- The draws of cvtI32: the free value, whichever it is. -/
theorem test_cvtI32_draws :
    [0x41E0000000000000#64, 0xC1E0000000200000#64, 0x7FF0000000000000#64, 0xFFF0000000000000#64,
      0x7FF8000000000000#64].all
      (fun x => cvtI32 77 (Datum.ofBits64 x) == 77 && cvtI32 5 (Datum.ofBits64 x) == 5) = true := by decide +kernel

theorem test_cvtPwm :
    [(0x0000000000000000#64, 0), (0x8000000000000000#64, 0), (0x3F50624DD2F1A9FC#64, 1),
      (0x3FE0000000000000#64, 511), (0x3FEFF7CED916872B#64, 1021), (0x3FF0000000000000#64, 1023),
      (0x3FF8000000000000#64, 1023), (0x4050066666666666#64, 1023), (0x7E37E43C8800759C#64, 1023),
      (0x7FF0000000000000#64, 1023), (0xBF40624DD2F1A9FC#64, 0)].all
      (fun p => (cvtPwm 7777 p.1).toNat == p.2) = true := by decide +kernel

/-- The draws of cvtPwm, at −1/1023 first. -/
theorem test_cvtPwm_draws :
    [0xBF50040100401004#64, 0xBF50624DD2F1A9FC#64, 0xBFF0000000000000#64, 0xFFF0000000000000#64,
      0x7FF8000000000000#64].all (fun x => cvtPwm 7777 x == 7777 && cvtPwm 5 x == 5) = true := by decide +kernel

theorem test_cvtVel :
    [(0x40C3880000000000#64, 0x461C4000#32), (0xC07F400000000000#64, 0xC3FA0000#32),
      (0x4059000000000001#64, 0x42C80000#32), (0x3FB999999999999A#64, 0x3DCCCCCD#32),
      (0x4170000010000000#64, 0x4B800000#32), (0x4170000030000000#64, 0x4B800002#32),
      (0x47EFFFFFE54DAFF8#64, 0x7F7FFFFF#32), (0x47EFFFFFF0000000#64, 0x7F800000#32),
      (0x48078287F49C4A1D#64, 0x7F800000#32), (0xC8078287F49C4A1D#64, 0xFF800000#32),
      (0x8000000000000000#64, 0x80000000#32), (0x3696D601AD376AB9#64, 0x00000001#32)].all
      (fun p => cvtVel 7 (Datum.ofBits64 p.1) == p.2) = true := by decide +kernel

/-- A NaN becomes a NaN pattern that the free word selects (R108). -/
theorem test_cvtVel_nan :
    cvtVel 0 .nan = 0x7F800001#32 ∧ cvtVel 0xFFFFFFFF .nan = 0xFFFFFFFF#32 := by decide +kernel

theorem test_cvtDir_cvtFreq_packIo :
    cvtDir 0xFFFFFFFF = 0xFFFFFFFF#32 ∧
      [1000#32, 65535#32, 65536#32, 70000#32, 4294967295#32].map cvtFreq = [1000, 65535, 0, 4464, 65535] ∧
      packIo ⟨true, false, true, false, true, true⟩ = 0x35 ∧ packIo (Channels.all true) = 0x3F ∧
      packIo ⟨false, false, false, false, false, true⟩ = 0x20 := by decide +kernel

/-- Feedback scaling of TV-D1 by [1000, 4, 0], and a zero by −200 (2.5). -/
theorem test_feedback_scaling :
    posFeedback 9 2000 0x408F400000000000#64 = 0x4000000000000000#64 ∧
      posFeedback 9 0xFFFFFFFF 0x4010000000000000#64 = 0xBFD0000000000000#64 ∧
      posFeedback 9 0x80000000 0#64 = 0xFFF0000000000000#64 ∧
      velFeedback 9 0x3F800000 0x408F400000000000#64 = 0x3F50624DD2F1A9FC#64 ∧
      velFeedback 9 0xBF000000 0x4010000000000000#64 = 0xBFC0000000000000#64 ∧
      velFeedback 9 0x7FC00000 0#64 = nanBits64 9 ∧
      posFeedback 9 0 0xC069000000000000#64 = 0x8000000000000000#64 := by decide +kernel

/-- 2.6. -/
theorem test_stageOf :
    [0x00, 0x01, 0x02, 0x03, 0x05, 0x06, 0x07, 0x40, 0x47, 0x87, 0x38, 0xFF].map stageOf =
      [.sendDirsetup, .sendAccel, .sendDirsetup, .sendPwmFreq, .sendAccel, .sendDirsetup, .operational,
        .sendDirsetup, .operational, .operational, .sendDirsetup, .operational] := by decide +kernel

/-! ## Steps -/

/-- The inputs of Part 3. -/
def inputs : HostInputs where
  enable := true
  positionCommand := ⟨0x3FF8000000000000, 0xC002000000000000, 0x3F5061E273273F09⟩
  velocityCommand := ⟨0x4024000000000000, 0xBFE0000000000000, 0x3FB999999999999A⟩
  dout := ⟨true, false, true, false, true, true⟩
  duty := ⟨0, 0x3FE0000000000000, 0x3FF0000000000000, 0x3FF8000000000000, 0x8000000000000000, 0x3F50624DD2F1A9FC⟩
  scale := ⟨0x408F400000000000, 0x4089000000000000, 0xC069000000000000⟩
  dirSetup := ⟨100, 200, 0xFFFFFFFF⟩
  accel := ⟨0x4049000000000000, 0x4039800000000000, 0x3FF0000000000000⟩
  pwmFrequency := ⟨1000, 2000, 5000, 10000, 20000, 70000⟩

/-- A call of the operation `op` with the inputs of Part 3 and a transport that accepts the Send. -/
def call (op : BitVec 2) (arrivals : List (List Byte)) : Invocation where
  op := op
  endpoint := ⟨0xC0A80102, 9000⟩
  tSend := 50
  tRecv := 100
  inputs := inputs
  acquire := .ok
  send := .ok
  recv := .deliver
  arrivals := arrivals

/-- An open transport with the call `c` to come, `ready` and the last feedback's control byte set. -/
def before (ready : Bool) (fb : Byte) (c : Invocation) : State :=
  { State.reset with
    tstate := .opened, ready := ready, fbLatch := { FeedbackFrame.zero with control := fb }, calls := [c] }

/-- A state before the first INIT. -/
def closedState (c : Invocation) : State := { State.reset with ready := true, calls := [c] }

/-- What a test looks at after a step: `f` of the next state. -/
def after {α : Type} (o : Host.Outcome State Fault Refusal) (f : State → α) : Option α :=
  match o with
  | .next t => some (f t)
  | .fault _ => none
  | .refused _ => none

/-- The reason of a fault. -/
def faultOf (o : Host.Outcome State Fault Refusal) : Option Fault :=
  match o with
  | .next _ => none
  | .fault r => some r
  | .refused _ => none

/-- PR1 cycle 5: K-RUN. -/
theorem test_cycle_sends_run :
    after (step (before true 0x47 (call 0b10#2 []))) (fun t => t.txbuf) = some kRun := by decide +kernel

/-- TV-Y1: the handshake frame K-DIR, the reply accepted, nothing lost. -/
theorem test_cycle_ok :
    after (step (before false 0 (call 0b10#2 [fbCtl 0x01])))
      (fun t => (t.sent.map Offer.bytes, t.ready, t.lostPackets, t.fbLatch.control, t.phase)) =
      some ([kDir], false, 0, 0x01, .idle) := by decide +kernel

/-- TV-Y2: READY without an acknowledgment sets `ready`. -/
theorem test_cycle_ready :
    after (step (before false 0 (call 0b10#2 [fbCtl 0x41]))) (fun t => (t.ready, t.lostPackets, t.fbLatch.control)) =
      some (true, 0, 0x41) := by decide +kernel

/-- TV-Y3: a failed Send; nothing is taken from the queue. -/
theorem test_cycle_send_fail :
    after (step (before true 0x47 { call 0b10#2 [fbCtl 0x47] with send := .fail }))
      (fun t => (t.ready, t.lostPackets, t.fbLatch.control, t.lastOutcome, t.queue.length)) =
      some (false, 1, 0x47, .sendFail, 1) := by decide +kernel

/-- TV-Y4 and TV-Y5: a timeout, and 27 bytes. -/
theorem test_cycle_recv_fail :
    [[], [List.replicate 27 0]].map (fun a =>
      after (step (before false 0 (call 0b10#2 a))) (fun t => (t.ready, t.lostPackets, t.fbLatch.control, t.lastOutcome))) =
      [some (false, 1, 0x00, .recvTimeout), some (false, 1, 0x00, .sizeMismatch)] := by decide +kernel

/-- The loss count wraps (2.7). -/
theorem test_cycle_loss_wraps :
    after (step { before false 0 (call 0b10#2 []) with lostPackets := 0x7FFFFFFF })
      (fun t => t.lostPackets.toInt) = some (-2147483648) := by decide +kernel

/-- PR1 cycles 2 to 4: K-ACC, K-PWM and K-IDLE. -/
theorem test_cycle_stages :
    [0x01, 0x03, 0x07].map (fun c => after (step (before false c (call 0b10#2 []))) (fun t => t.txbuf)) =
      [some kAcc, some kPwm, some kIdle] := by decide +kernel

/-- PR4 cycle 1: ENABLE 0 changes the control byte and the checksum only (TV-E6). -/
theorem test_cycle_disabled :
    after (step (before false 0 { call 0b10#2 [] with inputs := { inputs with enable := false } })) (fun t => t.txbuf) =
      some (0x01 :: (kDir.take 38).drop 1 ++ [0xEA]) := by decide +kernel

/-- PR1 cycle 4's reply: the outputs. -/
theorem test_fb_outputs :
    after (exec (.fb ⟨0x47, 0xA5, ⟨1500, 0xFFFFF8F8, 0xFFFFFF38⟩, ⟨0x461C4000, 0xC3C80000, 0x41A00000⟩⟩)
        { State.reset with inp := inputs, lostPackets := 1 })
      (fun t => (t.positionFeedback, t.velocityFeedback, t.din, t.ready, t.lostPackets)) =
      some (⟨0x3FF8000000000000, 0xC002000000000000, 0x3FF0000000000000⟩,
        ⟨0x4024000000000000, 0xBFE0000000000000, 0xBFB999999999999A⟩,
        ⟨true, false, true, false, false, true, false, true⟩, true, 0) := by decide +kernel

/-- TV-L1: INIT resets, and the discarded datagram changes nothing. -/
theorem test_init :
    after (step (closedState (call 0b01#2 [fbCtl 0x47, fbCtl 0x01])))
      (fun t => (t.ready, t.fbLatch.control, t.cfgTSend, t.queue, t.initAnswer)) =
      some (false, 0x00, 50, [fbCtl 0x01], .initOk) := by decide +kernel

/-- TV-L2 and TV-L4. -/
theorem test_init_failures :
    after (step (closedState { call 0b01#2 [] with acquire := .fail })) (fun t => (t.tstate, t.initAnswer)) =
        some (.closed, .initFailed) ∧
      faultOf (step (before false 0 (call 0b01#2 []))) = some .initWhileOpen := by decide +kernel

/-- TV-L3. -/
theorem test_cycle_while_closed : faultOf (step (closedState (call 0b10#2 []))) = some .cycleWhileClosed := by
  decide +kernel

/-- TV-L5 and TV-L6. -/
theorem test_shutdown :
    after (step (before true 0x47 (call 0b11#2 []))) (fun t => (t.tstate, t.phase, t.sent)) =
        some (.closed, .idle, []) ∧
      after (step (closedState (call 0b11#2 []))) (fun t => (t.tstate, t.ready)) = some (.closed, true) := by
  decide +kernel

/-- A table word placed after reset is what the next step runs. -/
theorem test_fetch_words :
    fetch (State.reset.withFetchWord 8 0x84) = .run (.cmdPwmfreq true) (State.reset.placeInstr (.cmdPwmfreq true)) ∧
      after (step (State.reset.withFetchWord 8 0x02)) (fun t => (t.phase, t.lostPackets)) = some (.idle, 1) ∧
      after (step (State.reset.withFetchWord 208 0x47)) (fun t => (t.ready, t.fbLatch.control)) = some (true, 0x47) ∧
      after (step (State.reset.withFetchWord 312 0x81)) (fun t => t.cmdLatch.control) = some 0x81 := by
  decide +kernel

/-! ## Witnesses: for each obligation with hypotheses, values that meet them; for one with clauses, the boundaries -/

/-- The reset state with the signals of `c` at the port and its arrivals queued. -/
def atPort (ready : Bool) (fb : Byte) (c : Invocation) : State :=
  (before ready fb c).present c []

/-- The same before the first INIT. -/
def closedAt (c : Invocation) : State := (closedState c).present c []

/-- A CYCLE call whose Send is answered `a` and whose Recv is answered `r`. -/
def cycleCall (a : SendAnswer) (r : RecvDraw) (arrivals : List (List Byte)) : Invocation :=
  { call 0b10#2 arrivals with send := a, recv := r }

/-- An outcome that is a next state. -/
def isNext (o : Host.Outcome State Fault Refusal) : Bool :=
  match o with
  | .next _ => true
  | .fault _ => false
  | .refused _ => false

theorem test_witness_DecodeOfEncode :
    [Instr.cmdRun true, .cmdDirsetup false, .cmdAccel true, .cmdPwmfreq false, .cmdIdle true, .fb frameD1, .init,
      .cycle, .shutdown].all (fun i => i.wellFormed && decide (decode (encode i) = .instr i)) = true := by
  decide +kernel

theorem test_witness_FrameCodecRoundTrips :
    fbD1.length = 26 ∧ kDir.length = 39 ∧ verifyCmd kDir = true ∧ (kDir.take 38).length = 38 := by decide +kernel

theorem test_witness_CodecInjective :
    encodeCmd CommandFrame.zero = encodeCmd CommandFrame.zero ∧ (fbCtl 7).length = 26 ∧
      decodeFb (fbCtl 7) = decodeFb (fbCtl 7) := by decide +kernel

/-- Lengths 25, 26 and 27 (R88); 38 and 39 bytes for VERIFY_CMD are in test_verify. -/
theorem test_witness_FeedbackDatagramLayout :
    decodeFb (List.replicate 25 0) = .sizeMismatch ∧ decodeFb (List.replicate 27 0) = .sizeMismatch ∧
      decodeFb fbD1 = .ok frameD1 ∧ fbD1[2]? = some 0xD0 ∧ fbD1[25]? = some 0x7F := by decide +kernel

/-- TV-C1 and TV-C2: byte 0 XORed with 80; K-IDLE with its first byte and with its checksum changed. -/
theorem test_witness_SingleByteErrorDetected :
    let p : List Byte := List.replicate 38 0
    checksum (p.set 0 (0 ^^^ 0x80)) = checksum p ^^^ 0x80 ∧ 0 < p.length ∧ kIdle.length = 39 ∧
      verifyCmd kIdle = true ∧ verifyCmd (kIdle.set 0 (0x80 ^^^ 1)) = false ∧
      verifyCmd (kIdle.set 38 (0xC7 ^^^ 1)) = false := by decide +kernel

/-- Each clause at a control byte, ENABLE 0 and 1; a reserved byte; the lengths next to 26 and 39. -/
theorem test_witness_DecoderAcceptsAndRefuses :
    [0x40, 0x01, 0x02, 0x04, 0x00, 0xC0, 0x81, 0x82, 0x84, 0x80, 0x05, 0x85].map
      (fun c : Byte => decode (.datagram (c :: List.replicate 38 0))) =
      [.instr (.cmdRun false), .instr (.cmdDirsetup false), .instr (.cmdAccel false), .instr (.cmdPwmfreq false),
        .instr (.cmdIdle false), .instr (.cmdRun true), .instr (.cmdDirsetup true), .instr (.cmdAccel true),
        .instr (.cmdPwmfreq true), .instr (.cmdIdle true), .rejected .reservedControl, .rejected .reservedControl] ∧
    [25, 27, 38, 40].map (fun n => decode (.datagram (List.replicate n 0))) = List.replicate 4 (.rejected .badLength) := by
  decide +kernel

/-- R107 at the four boundaries: the last values in range, and the first ones out of it. -/
theorem test_witness_CvtI32Truncates :
    (cvtI32 77 (.fin false 2147483647 0)).toInt = 2147483647 ∧ (cvtI32 77 (.fin true 2147483648 0)).toInt = -2147483648 ∧
      cvtI32 77 (.fin false 2147483648 0) = 77 ∧ cvtI32 77 (.fin true 2147483649 0) = 77 ∧
      (cvtI32 77 (.fin true 4294967297 (-1))).toInt = -2147483648 := by decide +kernel

/-- R109 at the boundaries: 0.5, 1, 1023, 1023.5, 1024; −0.5, −1. -/
theorem test_witness_CvtPwmClampsAbove :
    [(Datum.fin false 1 (-1), 0), (.fin false 1 0, 1), (.fin false 1023 0, 1023), (.fin false 2047 (-1), 1023),
      (.fin false 1024 0, 1023), (.fin true 1 (-1), 0), (.fin true 1 0, 77)].all
      (fun p => (narrowPwm 77 p.1).toNat == p.2) = true ∧
    truncMag 1 (-1) = 0 ∧ truncMag 1 0 = 1 := by decide +kernel

/-- The first and the last NaN pattern of each sign, and the infinity just below (R108). -/
theorem test_witness_CvtVelSpecialValues :
    [0x7F800001#32, 0x7FFFFFFF#32, 0xFF800001#32, 0xFFFFFFFF#32].all
      (fun p => decide (Datum.ofBits32 p = .nan) && cvtVel p .nan == p) = true ∧
    Datum.ofBits32 0x7F800000 = .inf false := by decide +kernel

/-- R13: 1/2 and 3/2 are ties, 2/3 and 4/3 are not; the hypotheses 0 < n and 0 < d hold of each. -/
theorem test_witness_RoundHalfEvenIsNearest :
    roundHalfEven 1 2 = 0 ∧ roundHalfEven 3 2 = 2 ∧ roundHalfEven 2 3 = 1 ∧ roundHalfEven 4 3 = 1 := by decide +kernel

/-- Both zeros, the smallest and the largest subnormal, the smallest normal, the largest finite, both infinities. -/
theorem test_witness_Binary64RoundTrips :
    [0x0000000000000000#64, 0x8000000000000000#64, 0x0000000000000001#64, 0x000FFFFFFFFFFFFF#64, 0x0010000000000000#64,
      0x7FEFFFFFFFFFFFFF#64, 0x7FF0000000000000#64, 0xFFF0000000000000#64].all
      (fun b => decide (Datum.ofBits64 b ≠ .nan) && bits64 9 (Datum.ofBits64 b) == b) = true ∧
    Datum.ofBits64 0x7FF0000000000001#64 = .nan ∧ Datum.ofBits64 0xFFF0000000000000#64 = .inf true := by decide +kernel

/-- W3: the scale 1000.0 and the position 2000 meet the hypotheses of FeedbackScalesOutputs, and so does a velocity
of 1.0 (TV-D1). -/
theorem test_witness_FeedbackScalesOutputs :
    Datum.ofBits64 0x408F400000000000#64 = .fin false 0x1F400000000000 (-43) ∧ (2000 : I32) ≠ 0 ∧
      Datum.ofBits32 0x3F800000#32 = .fin false 0x800000 (-23) ∧
      (List.map (fun v => posFeedback v 2000 0x408F400000000000#64) [0, 9]) = List.replicate 2 0x4000000000000000#64 := by
  decide +kernel

/-- 1.5 times 1.5, 1 by 3 rounded, the largest finite value times 2, the smallest subnormal by 2 (a tie, to even). -/
theorem test_witness_ProductAndQuotientAreRounded :
    bits64 9 (mulF64 (.fin false 3 (-1)) (.fin true 3 (-1))) = 0xC002000000000000#64 ∧
      bits64 9 (divF64 (.fin false 1 0) (.fin false 3 0)) = 0x3FD5555555555555#64 ∧
      mulF64 (.fin false 0x1FFFFFFFFFFFFF 971) (.fin false 2 0) = .inf false ∧
      bits64 9 (divF64 (.fin true 1 (-1074)) (.fin false 2 0)) = 0x8000000000000000#64 := by decide +kernel

/-- Binary32 at the midpoint above its largest finite value, and just below it (R108). -/
theorem test_witness_overflow_midpoint :
    cvtVel 9 (.fin false 0x1FFFFFF 103) = 0x7F800000#32 ∧ cvtVel 9 (.fin false 0x3FFFFFD 102) = 0x7F7FFFFF#32 := by
  decide +kernel

/-- R118 with both zero scales and positions 1, −1 and 0. -/
theorem test_witness_ZeroScaleFeedback :
    posFeedback 9 1 0x0000000000000000#64 = 0x7FF0000000000000#64 ∧
      posFeedback 9 1 0x8000000000000000#64 = 0xFFF0000000000000#64 ∧
      posFeedback 9 0xFFFFFFFF 0x8000000000000000#64 = 0x7FF0000000000000#64 ∧
      posFeedback 9 0 0x8000000000000000#64 = nanBits64 9 := by decide +kernel

theorem test_witness_CommandKindsFrame :
    [Instr.cmdRun true, .cmdDirsetup true, .cmdAccel false, .cmdPwmfreq true, .cmdIdle false].all
      (fun i => isNext (exec i State.reset)) = true := by decide +kernel

theorem test_witness_FeedbackFrameCondition : isNext (exec (.fb frameD1) State.reset) = true := by decide +kernel

theorem test_witness_InitResetsEveryElement :
    (closedAt (call 0b01#2 [])).tstate = .closed ∧ (closedAt (call 0b01#2 [])).port.acquire = .ok := by decide +kernel

theorem test_witness_InitFailureWritesNothing :
    let s := closedAt { call 0b01#2 [] with acquire := .fail }
    s.tstate = .closed ∧ s.port.acquire = .fail := by decide +kernel

/-- A discard-read that takes a datagram, and one that finds none. -/
theorem test_witness_InitFrameCondition :
    after (exec .init (closedAt (call 0b01#2 [fbD1]))) (fun t => t.queue) = some [] ∧
      after (exec .init (closedAt (cycleCall .ok .timeout [fbD1]))) (fun t => t.queue) = some [fbD1] := by
  decide +kernel

/-- The open and the closed transport: INIT, CYCLE and SHUTDOWN of each (R95, R133 to R135). -/
theorem test_witness_TransportState :
    (atPort true 0x47 (call 0b11#2 [])).tstate = .opened ∧ (closedAt (call 0b11#2 [])).tstate = .closed := by
  decide +kernel

/-- The five clauses, at the smallest and the largest control byte of each. -/
theorem test_witness_CycleSelectsFrame :
    [(true, 0x00), (true, 0xFF), (false, 0x00), (false, 0xFE), (false, 0x01), (false, 0xFD), (false, 0x03),
      (false, 0xFB), (false, 0x07), (false, 0xFF)].map (fun p : Bool × Byte =>
        after (exec .cycle (atPort p.1 p.2 (call 0b10#2 []))) (fun t => kindOf t.cmdLatch.control)) =
      [some (some .run), some (some .run), some (some .dirsetup), some (some .dirsetup), some (some .accel),
        some (some .accel), some (some .pwmfreq), some (some .pwmfreq), some (some .idle), some (some .idle)] := by
  decide +kernel

/-- Also the witness of LossPerCycle's and ExchangeIsOneSendOneReceive's completed cycles. -/
theorem test_witness_CycleCompletesRoundTrip :
    let s := atPort true 0x47 (call 0b10#2 [fbCtl 0x47])
    s.tstate = .opened ∧ s.port.send = .ok ∧ s.port.recv = .deliver ∧ s.queue = [fbCtl 0x47] ∧
      decodeFb (fbCtl 0x47) = .ok { FeedbackFrame.zero with control := 0x47 } := by decide +kernel

theorem test_witness_SendFailureEndsCycle :
    let s := atPort true 0x47 (cycleCall .fail .deliver [fbCtl 0x47])
    s.tstate = .opened ∧ s.port.send = .fail ∧ s.roundTripOk = false := by decide +kernel

/-- Each of the three receive failures: the timeout, the empty queue, and 25 or 27 bytes. -/
theorem test_witness_ReceiveFailureEndsCycle :
    (atPort true 0x47 (cycleCall .ok .timeout [fbCtl 0x47])).port.recv = .timeout ∧
      (atPort true 0x47 (cycleCall .ok .deliver [])).queue = [] ∧
      (atPort true 0x47 (cycleCall .ok .deliver [List.replicate 25 0])).queue = [List.replicate 25 0] ∧
      (atPort true 0x47 (cycleCall .ok .deliver [])).tstate = .opened := by decide +kernel

/-- The four ways a round trip is lost, and the one way it completes. -/
theorem test_witness_FailurePolicyIsUniform :
    [cycleCall .fail .deliver [fbCtl 0x47], cycleCall .ok .timeout [fbCtl 0x47], cycleCall .ok .deliver [],
      cycleCall .ok .deliver [List.replicate 27 0], cycleCall .ok .deliver [fbCtl 0x47]].map (fun c =>
        ((atPort true 0x47 c).roundTripOk, after (exec .cycle (atPort true 0x47 c)) (fun t => (t.ready, t.lostPackets)))) =
      [(false, some (false, 1)), (false, some (false, 1)), (false, some (false, 1)), (false, some (false, 1)),
        (true, some (true, 0))] := by decide +kernel

/-- R121 at the wrap of the loss count. -/
theorem test_witness_LossPerCycle :
    after (exec .cycle { atPort false 0 (cycleCall .fail .deliver []) with lostPackets := 0xFFFFFFFF })
      (fun t => t.lostPackets.toNat) = some 0 := by decide +kernel

/-- Two CYCLEs to come, one of them lost. -/
theorem test_witness_LossOverManyCycles :
    let cs := [call 0b10#2 [fbCtl 0x01], cycleCall .fail .deliver []]
    let s : State := { State.reset with tstate := .opened, calls := cs }
    s.phase = .idle ∧ s.tstate = .opened ∧ cs.all (fun c => c.op == 0b10#2) = true ∧ failedCycles s.queue cs = 1 ∧
      isNext (exec .cycle (atPort false 0 (cycleCall .fail .deliver []))) = true := by decide +kernel

/-- A CYCLE that answers a next state, not ready and ready: the hypotheses of ExchangeIsOneSendOneReceive,
PayloadIsMultiplexed, EnableBitIsFresh, CycleFrameCondition and CycleIsItsPhases. -/
theorem test_witness_cycle_completes :
    [false, true].all (fun r => isNext (exec .cycle (atPort r 0x07 (call 0b10#2 [fbD1])))) = true := by decide +kernel

/-- Each clause of HandshakeOrder: control bytes 02, 04 and 00 are sent, and 01, with `ready` 0. -/
theorem test_witness_HandshakeOrder :
    [0x01, 0x03, 0x07, 0x00].map (fun c => after (exec .cycle (atPort false c (call 0b10#2 [])))
      (fun t => t.cmdLatch.control &&& 0x7F)) = [some 0x02, some 0x04, some 0x00, some 0x01] := by decide +kernel

theorem test_witness_MotionInputsAreInvisibleUntilReady :
    (atPort false 0x03 (call 0b10#2 [])).ready = false ∧
      isNext (exec .cycle (atPort false 0x03 (call 0b10#2 []))) = true := by decide +kernel

/-- An invocation to run, the phase BUILD, and the phase UPDATE with a feedback datagram in RXBUF. -/
theorem test_witness_StepRunsDecodedInstruction :
    ((before false 0 (call 0b10#2 [])).phase = .idle ∧ decode (.select (call 0b10#2 []).op) = .instr .cycle ∧
      Instr.cycle.wellFormed = true) ∧
    ({ State.reset with phase := .build } : State).phase = .build ∧
    decode (.datagram ({ State.reset with phase := .update, rxbuf := fbD1 } : State).rxbuf) = .instr (.fb frameD1) := by
  decide +kernel

theorem test_witness_OpSelectNoneIsRefused :
    let s := before false 0 (call 0b00#2 [])
    s.phase = .idle ∧ s.calls = [call 0b00#2 []] ∧ (call 0b00#2 []).op = 0b00#2 := by decide +kernel

/-- Also the witness of OperationsEndIdle with no call to come. -/
theorem test_witness_IdleHoldsState :
    State.reset.phase = .idle ∧ State.reset.calls = [] ∧ isNext (step State.reset) = true := by decide +kernel

theorem test_witness_OperationsEndIdle :
    (before false 0 (call 0b10#2 [fbD1])).phase = .idle ∧ isNext (step (before false 0 (call 0b10#2 [fbD1]))) = true := by
  decide +kernel

theorem test_witness_FirstCycleSendsDirsetup :
    (call 0b01#2 []).op = 0b01#2 ∧ (call 0b01#2 []).acquire = .ok ∧ (call 0b10#2 []).op = 0b10#2 := by decide +kernel

/-- Also the witness of ResetHoldsInitValues and ResetHasInvariant: an INIT from reset opens the transport (R30, R40). -/
theorem test_init_from_reset :
    after (step { State.reset with calls := [call 0b01#2 [fbCtl 0x47]] })
      (fun t => (t.tstate, t.ready, t.initAnswer, t.cfgEndpoint, t.cfgTRecv)) =
      some (.opened, false, .initOk, ⟨0xC0A80102, 9000⟩, 100) ∧
    faultOf (step { State.reset with calls := [call 0b10#2 []] }) = some .cycleWhileClosed := by decide +kernel

/-- The invariant holds in the reset state and in one with `ready` set, and the step goes on from both. -/
theorem test_witness_EveryStepKeepsInvariant :
    State.reset.Inv ∧ (before true 0x47 (call 0b10#2 [])).Inv ∧
      isNext (step (before true 0x47 (call 0b10#2 []))) = true := by
  unfold State.Inv
  decide +kernel

/-- `ready` becomes 1 by an accepted frame with READY, and a CMD_RUN frame is offered while `ready` is 1. -/
theorem test_witness_MotionNeedsReady :
    after (step (before false 0 (call 0b10#2 [fbCtl 0x47]))) (fun t => (t.ready, t.tstate)) = some (true, .opened) ∧
      after (step (before true 0x47 (call 0b10#2 []))) (fun t => t.sent.map Offer.kind) = some [some .run] := by
  decide +kernel

end Sys2Proof.Tests
end

section
/-!
PROOFS. IEEE-754 rounding (R13): the rounded quotient, the binary64 and binary32 magnitude of a rational, the value
that a pattern is read as, and the product and the quotient.
-/

namespace Sys2Proof.Machine

/-! ## The rounded quotient -/

/-- `roundHalfEven n d` is within half a unit of `n / d`, and is even where it is exactly half a unit away. -/
theorem roundHalfEven_spec (n d : Nat) (hd : 0 < d) :
    (2 * (roundHalfEven n d * d) ≤ 2 * n + d ∧ 2 * n ≤ 2 * (roundHalfEven n d * d) + d) ∧
    (2 * (roundHalfEven n d * d) = 2 * n + d ∨ 2 * n = 2 * (roundHalfEven n d * d) + d →
      roundHalfEven n d % 2 = 0) := by
  have hn : n / d * d + n % d = n := Nat.div_add_mod' n d
  have hr : n % d < d := Nat.mod_lt n hd
  unfold roundHalfEven
  dsimp only
  split
  · omega
  · split
    · rw [Nat.add_mul]
      omega
    · rcases Nat.mod_two_eq_zero_or_one (n / d) with h | h <;> rw [h, Nat.add_mul] <;> omega

/-! ## The nearest term of a sequence -/

/-- `V p` is a term of `V` nearest to `x`: `x` lies on the near side of its midpoint with every other term, and `p` is
even where `x` is such a midpoint. -/
structure IsNearest (V : Nat → ℚ) (x : ℚ) (p : Nat) : Prop where
  below : ∀ k < p, V k + V p ≤ 2 * x
  above : ∀ k > p, 2 * x ≤ V k + V p
  even_of_tie : ∀ k ≠ p, V k + V p = 2 * x → p % 2 = 0

/-- `roundHalfEven n d` is the integer nearest to `n / d`. -/
theorem isNearest_roundHalfEven (n d : Nat) (hd : 0 < d) : IsNearest Nat.cast (n / d) (roundHalfEven n d) := by
  obtain ⟨⟨hle, hge⟩, heven⟩ := roundHalfEven_spec n d hd
  have hdq : (0 : ℚ) < d := by exact_mod_cast hd
  generalize roundHalfEven n d = r at *
  constructor
  · intro k hk
    have : (k + r + 1) * d ≤ 2 * r * d := Nat.mul_le_mul_right d (by omega)
    rw [← mul_div_assoc, le_div_iff₀ hdq]
    norm_cast
    linarith
  · intro k hk
    have : (2 * r + 1) * d ≤ (k + r) * d := Nat.mul_le_mul_right d (by omega)
    rw [← mul_div_assoc, div_le_iff₀ hdq]
    norm_cast
    linarith
  · intro k hk h
    rw [← mul_div_assoc, eq_div_iff hdq.ne'] at h
    norm_cast at h
    rcases lt_or_gt_of_ne hk with hkr | hkr
    · have : (k + r + 1) * d ≤ 2 * r * d := Nat.mul_le_mul_right d (by omega)
      exact heven (.inl (by linarith))
    · have : (2 * r + 1) * d ≤ (k + r) * d := Nat.mul_le_mul_right d (by omega)
      exact heven (.inr (by linarith))

theorem abs_sub_lt_of_midpoint {x a b : ℚ} (h : 0 < (b - a) * (2 * x - (a + b))) : |x - b| < |x - a| := by
  rw [← sq_lt_sq]
  linarith

theorem abs_sub_eq_of_midpoint {x a b : ℚ} (h : a + b = 2 * x) : |x - b| = |x - a| :=
  abs_eq_abs.2 (.inr (by linarith))

/-- In an increasing sequence the nearest term is nearer than any other one, or as near and even. -/
theorem IsNearest.abs_sub {V : Nat → ℚ} {x : ℚ} {p : Nat} (h : IsNearest V x p) (hV : StrictMono V) {k : Nat}
    (hk : k ≠ p) : |x - V p| < |x - V k| ∨ |x - V p| = |x - V k| ∧ p % 2 = 0 := by
  rcases eq_or_ne (V k + V p) (2 * x) with htie | hne
  · exact .inr ⟨abs_sub_eq_of_midpoint htie, h.even_of_tie k hk htie⟩
  · refine .inl (abs_sub_lt_of_midpoint ?_)
    rcases lt_or_gt_of_ne hk with hkp | hkp
    · have := (h.below k hkp).lt_of_ne hne
      exact mul_pos (sub_pos.2 (hV hkp)) (sub_pos.2 this)
    · have := (h.above k hkp).lt_of_ne hne.symm
      exact mul_pos_of_neg_of_neg (sub_neg.2 (hV hkp)) (sub_neg.2 this)

/-- Where `p` is the nearest pattern with no bound on the exponent, cutting it off at the (even) infinity pattern
rounds as R13 says. -/
theorem IsNearest.isRounded {frac : Nat} {qmin : Int} {infMag : Nat} {x : ℚ} {p : Nat}
    (h : IsNearest (magValue frac qmin) x p) (hpos : 0 < infMag) (heven : infMag % 2 = 0) :
    IsRounded frac qmin infMag x (min p infMag) := by
  have hV := magValue_strictMono frac qmin
  unfold IsRounded
  rcases lt_or_ge p infMag with hp | hp
  · have hx : x < (magValue frac qmin (infMag - 1) + magValue frac qmin infMag) / 2 := by
      have hle : magValue frac qmin p ≤ magValue frac qmin (infMag - 1) := hV.monotone (by omega)
      have hne : magValue frac qmin (infMag - 1) + magValue frac qmin infMag ≠ 2 * x := fun htie => by
        have hpe : p = infMag - 1 := hV.injective (by linarith [h.above infMag hp])
        have := h.even_of_tie infMag hp.ne' (by rw [hpe, add_comm, htie])
        omega
      have := hne.symm.lt_of_le (by linarith [h.above infMag hp])
      linarith
    rw [if_pos hx, min_eq_left hp.le]
    exact ⟨hp, fun k _ hk => h.abs_sub hV hk⟩
  · have hle : magValue frac qmin infMag ≤ magValue frac qmin p := hV.monotone hp
    rw [min_eq_right hp, if_neg]
    linarith [h.below (infMag - 1) (by omega)]

/-! ## The magnitude of a rational -/

/-- An integer bound of `y` bounds the integer nearest to it. -/
theorem IsNearest.le_of_le {y : ℚ} {r c : Nat} (h : IsNearest Nat.cast y r) (hy : y ≤ c) : r ≤ c := by
  by_contra! hlt
  have := h.below c hlt
  have : (c : ℚ) < r := by exact_mod_cast hlt
  linarith

theorem IsNearest.ge_of_ge {y : ℚ} {r c : Nat} (h : IsNearest Nat.cast y r) (hy : c ≤ y) : c ≤ r := by
  by_contra! hlt
  have := h.above c hlt
  have : (r : ℚ) < c := by exact_mod_cast hlt
  linarith

/-- Inside the binade `j`, the patterns below `r` quanta are at most fewer quanta. -/
theorem magValue_le_quanta {frac : Nat} (qmin : Int) {j r k : Nat} (hk : k < j * 2 ^ frac + r)
    (hr : r ≤ 2 * 2 ^ frac) (hj : j = 0 ∨ 2 ^ frac < r) :
    ∃ i < r, magValue frac qmin k ≤ i * 2 ^ (qmin + j) := by
  have hr0 : 0 < r := by rcases hj with rfl | h <;> omega
  refine ⟨r - 1, by omega, ?_⟩
  rw [← magValue_binade frac qmin j (r - 1) (by omega) (by omega)]
  exact (magValue_strictMono frac qmin).monotone (by omega)

/-- Inside the binade `j`, the patterns above `r` quanta are at least more quanta. -/
theorem quanta_le_magValue {frac : Nat} (qmin : Int) {j r k : Nat} (hk : k > j * 2 ^ frac + r)
    (hr : r < 2 * 2 ^ frac) (hj : j = 0 ∨ 2 ^ frac ≤ r) :
    ∃ i > r, i * 2 ^ (qmin + j) ≤ magValue frac qmin k := by
  refine ⟨r + 1, by omega, ?_⟩
  rw [← magValue_binade frac qmin j (r + 1) (by omega) (by omega)]
  exact (magValue_strictMono frac qmin).monotone (by omega)

/-- Rounding the significand `y` of `y * 2^(qmin + j)` to the integer `r` gives the nearest pattern, in the binade `j`
or by a carry in the next. A pattern on the far side of `r` quanta is no candidate; one on the near side is compared
with `r` as integers. -/
theorem IsNearest.binade {frac : Nat} (qmin : Int) {j r : Nat} {y : ℚ} (h : IsNearest Nat.cast y r)
    (hfrac : 0 < frac) (hy : y < 2 * 2 ^ frac) (hj : j = 0 ∨ 2 ^ frac ≤ y) :
    IsNearest (magValue frac qmin) (y * 2 ^ (qmin + j)) (j * 2 ^ frac + r) := by
  have hV := magValue_strictMono frac qmin
  have hu : (0 : ℚ) < 2 ^ (qmin + j) := by positivity
  have hr : r ≤ 2 * 2 ^ frac := h.le_of_le (by exact_mod_cast hy.le)
  have hjr : j = 0 ∨ 2 ^ frac ≤ r := hj.imp_right fun hle => h.ge_of_ge (by exact_mod_cast hle)
  have hval := magValue_binade frac qmin j r hr hjr
  have heven : r % 2 = 0 → (j * 2 ^ frac + r) % 2 = 0 := fun h => by
    obtain ⟨f, rfl⟩ := Nat.exists_eq_add_of_lt hfrac
    rw [pow_succ, ← mul_assoc]
    omega
  have hlo : ∀ k < j * 2 ^ frac + r, magValue frac qmin k + r * 2 ^ (qmin + j) < 2 * (y * 2 ^ (qmin + j)) ∨
      ∃ i < r, magValue frac qmin k ≤ i * 2 ^ (qmin + j) := by
    intro k hk
    rcases le_or_gt (r : ℚ) y with hry | hry
    · have := hV hk
      have := mul_le_mul_of_nonneg_right hry hu.le
      exact .inl (by linarith)
    · exact .inr (magValue_le_quanta qmin hk hr (hj.imp_right fun hle => by exact_mod_cast hle.trans_lt hry))
  have hhi : ∀ k > j * 2 ^ frac + r, 2 * (y * 2 ^ (qmin + j)) < magValue frac qmin k + r * 2 ^ (qmin + j) ∨
      ∃ i > r, i * 2 ^ (qmin + j) ≤ magValue frac qmin k := by
    intro k hk
    rcases le_or_gt y r with hry | hry
    · have := hV hk
      have := mul_le_mul_of_nonneg_right hry hu.le
      exact .inl (by linarith)
    · exact .inr (quanta_le_magValue qmin hk (by exact_mod_cast hry.trans hy) hjr)
  constructor <;> rw [hval]
  · intro k hk
    rcases hlo k hk with hlt | ⟨i, hi, hle⟩
    · exact hlt.le
    · have := mul_le_mul_of_nonneg_right (h.below i hi) hu.le
      linarith
  · intro k hk
    rcases hhi k hk with hlt | ⟨i, hi, hle⟩
    · exact hlt.le
    · have := mul_le_mul_of_nonneg_right (h.above i hi) hu.le
      linarith
  · intro k hk htie
    rcases lt_or_gt_of_ne hk with hkp | hkp
    · rcases hlo k hkp with hlt | ⟨i, hi, hle⟩
      · exact absurd htie hlt.ne
      · refine heven (h.even_of_tie i hi.ne (le_antisymm (h.below i hi) ?_))
        exact le_of_mul_le_mul_right (by linarith) hu
    · rcases hhi k hkp with hlt | ⟨i, hi, hle⟩
      · exact absurd htie hlt.ne'
      · refine heven (h.even_of_tie i hi.ne' (le_antisymm ?_ (h.above i hi)))
        exact le_of_mul_le_mul_right (by linarith) hu

/-- The quotient that `magBits` rounds is the magnitude in units of `2^q`. -/
theorem significand_eq (n d : Nat) (e q : Int) :
    ((n * pow2 (e - q) : Nat) : ℚ) / (d * pow2 (q - e) : Nat) * 2 ^ q = n / d * 2 ^ e := by
  have h : (2 : ℚ) ^ e = 2 ^ (e - q) * 2 ^ q := by rw [← zpow_add₀ two_ne_zero, sub_add_cancel]
  rw [h, zpow_two_eq (e - q), neg_sub]
  push_cast
  rw [mul_div_mul_comm, mul_assoc]

/-- A positive magnitude is rounded to nearest, ties to even, in every format with a fraction (R13). -/
theorem magBits_isRounded {frac : Nat} (qmin : Int) {infMag n d : Nat} (e : Int) (hfrac : 0 < frac)
    (hpos : 0 < infMag) (heven : infMag % 2 = 0) (hn : 0 < n) (hd : 0 < d) :
    IsRounded frac qmin infMag (n / d * 2 ^ e) (magBits frac qmin infMag n d e) := by
  obtain ⟨hlo, hhi⟩ := floorLog2_spec n d hn hd
  unfold magBits
  rw [if_neg hn.ne']
  dsimp only
  generalize hq : max (floorLog2 n d + e - frac) qmin = q
  have hD : 0 < d * pow2 (q - e) := Nat.mul_pos hd (pow2_pos _)
  have hx := significand_eq n d e q
  have hnear := isNearest_roundHalfEven (n * pow2 (e - q)) (d * pow2 (q - e)) hD
  generalize ((n * pow2 (e - q) : Nat) : ℚ) / (d * pow2 (q - e) : Nat) = y at hx hnear
  have hu : (0 : ℚ) < 2 ^ q := by positivity
  have hue : (0 : ℚ) < 2 ^ e := by positivity
  have hqj : q = qmin + ((q - qmin).toNat : Int) := by omega
  rw [← hx]
  have hy : y < 2 * 2 ^ frac := by
    refine lt_of_mul_lt_mul_right ?_ hu.le
    calc y * 2 ^ q = n / d * 2 ^ e := hx
      _ < 2 ^ (floorLog2 n d + 1) * 2 ^ e := mul_lt_mul_of_pos_right hhi hue
      _ = 2 ^ (floorLog2 n d + 1 + e) := (zpow_add₀ two_ne_zero _ _).symm
      _ ≤ 2 ^ (1 + (frac : Int) + q) := zpow_le_zpow_right₀ one_le_two (by omega)
      _ = 2 * 2 ^ frac * 2 ^ q := by
        rw [zpow_add₀ two_ne_zero, zpow_add₀ two_ne_zero, zpow_one, zpow_natCast]
  have hj : (q - qmin).toNat = 0 ∨ 2 ^ frac ≤ y := by
    refine or_iff_not_imp_left.2 fun hne => le_of_mul_le_mul_right ?_ hu
    calc (2 : ℚ) ^ frac * 2 ^ q = 2 ^ ((frac : Int) + q) := by rw [zpow_add₀ two_ne_zero, zpow_natCast]
      _ = 2 ^ (floorLog2 n d + e) := by congr 1; omega
      _ = 2 ^ floorLog2 n d * 2 ^ e := zpow_add₀ two_ne_zero _ _
      _ ≤ n / d * 2 ^ e := mul_le_mul_of_nonneg_right hlo hue.le
      _ = y * 2 ^ q := hx.symm
  have := (hnear.binade qmin hfrac hy hj).isRounded hpos heven
  rwa [← hqj] at this

/-- R13 for binary64. -/
theorem mag64_isRounded {n d : Nat} (e : Int) (hn : 0 < n) (hd : 0 < d) :
    IsRounded64 (n / d * 2 ^ e) (mag64 n d e) :=
  magBits_isRounded _ e (by decide) (by decide) (by decide) hn hd

/-- R13 for binary32. -/
theorem mag32_isRounded {m : Nat} (e : Int) (hm : 0 < m) : IsRounded32 (m * 2 ^ e) (mag32 m e) := by
  have h := magBits_isRounded (frac := 23) (-149) (infMag := infMag32) e (by decide) (by decide) (by decide) hm one_pos
  rwa [Nat.cast_one, div_one] at h

@[simp] theorem magBits_zero (frac : Nat) (qmin : Int) (infMag d : Nat) (e : Int) :
    magBits frac qmin infMag 0 d e = 0 := if_pos rfl

@[simp] theorem mag64_zero (d : Nat) (e : Int) : mag64 0 d e = 0 := magBits_zero ..

@[simp] theorem mag32_zero (e : Int) : mag32 0 e = 0 := magBits_zero ..

/-- Settles O16: the rounded quotient is the nearest integer, and `magBits` rounds the significand in the binade of
its value, so its pattern is the nearest one. -/
theorem roundHalfEvenIsNearest : Obligations.RoundHalfEvenIsNearest :=
  ⟨roundHalfEven_spec, fun _ _ e => mag64_isRounded e, fun _ e => mag32_isRounded e, mag64_zero, mag32_zero⟩

/-! ## The value of a pattern -/

/-- A pattern with an exponent below `top` is read as a finite datum of its value. -/
theorem datumOf_finite {frac top : Nat} (qmin : Int) (neg : Bool) {p : Nat} (hp : p < top * 2 ^ frac) :
    ∃ (m : Nat) (e : Int), datumOf frac top qmin neg (p / 2 ^ frac) (p % 2 ^ frac) = .fin neg m e ∧
      (m * 2 ^ e : ℚ) = magValue frac qmin p := by
  have hpos : 0 < 2 ^ frac := by positivity
  have hex : p / 2 ^ frac ≠ top := (Nat.div_lt_of_lt_mul (by rwa [mul_comm])).ne
  unfold datumOf magValue
  rw [if_neg hex]
  by_cases hsub : p < 2 ^ frac
  · rw [if_pos (Nat.div_eq_of_lt hsub), if_pos hsub, Nat.mod_eq_of_lt hsub]
    exact ⟨p, qmin, rfl, rfl⟩
  · rw [if_neg (Nat.div_pos (not_lt.1 hsub) hpos).ne', if_neg hsub]
    exact ⟨_, _, rfl, by push_cast; rfl⟩

theorem datumOf_infinity (frac top : Nat) (qmin : Int) (neg : Bool) : datumOf frac top qmin neg top 0 = .inf neg := by
  simp [datumOf]

theorem datumOf_nan {frac top : Nat} (qmin : Int) (neg : Bool) {fr : Nat} (hfr : fr ≠ 0) :
    datumOf frac top qmin neg top fr = .nan := by
  simp [datumOf, hfr]

theorem ofBits64_eq (b : F64) : Datum.ofBits64 b =
    datumOf 52 2047 (-1074) (b.getLsbD 63) (b.toNat % 2 ^ 63 / 2 ^ 52) (b.toNat % 2 ^ 63 % 2 ^ 52) := by
  rw [Datum.ofBits64, show b.toNat / 2 ^ 52 % 2048 = b.toNat % 2 ^ 63 / 2 ^ 52 by omega,
    show b.toNat % 2 ^ 52 = b.toNat % 2 ^ 63 % 2 ^ 52 by omega]

theorem ofBits32_eq (b : F32) : Datum.ofBits32 b =
    datumOf 23 255 (-149) (b.getLsbD 31) (b.toNat % 2 ^ 31 / 2 ^ 23) (b.toNat % 2 ^ 31 % 2 ^ 23) := by
  rw [Datum.ofBits32, show b.toNat / 2 ^ 23 % 256 = b.toNat % 2 ^ 31 / 2 ^ 23 by omega,
    show b.toNat % 2 ^ 23 = b.toNat % 2 ^ 31 % 2 ^ 23 by omega]

/-- What a binary64 pattern is read as, by its magnitude (R12, R13). -/
theorem ofBits64_spec (b : F64) :
    (b.toNat % 2 ^ 63 < 2047 * 2 ^ 52 → ∃ (m : Nat) (e : Int), Datum.ofBits64 b = .fin (b.getLsbD 63) m e ∧
      (m * 2 ^ e : ℚ) = magValue 52 (-1074) (b.toNat % 2 ^ 63)) ∧
    (b.toNat % 2 ^ 63 = 2047 * 2 ^ 52 → Datum.ofBits64 b = .inf (b.getLsbD 63)) ∧
    (2047 * 2 ^ 52 < b.toNat % 2 ^ 63 → Datum.ofBits64 b = .nan) := by
  rw [ofBits64_eq]
  refine ⟨datumOf_finite _ _, fun h => ?_, fun h => ?_⟩
  · rw [h]
    exact datumOf_infinity 52 2047 _ _
  · rw [show b.toNat % 2 ^ 63 / 2 ^ 52 = 2047 by omega]
    exact datumOf_nan _ _ (by omega)

/-- What a binary32 pattern is read as, by its magnitude (R13, R74). -/
theorem ofBits32_spec (b : F32) :
    (b.toNat % 2 ^ 31 < 255 * 2 ^ 23 → ∃ (m : Nat) (e : Int), Datum.ofBits32 b = .fin (b.getLsbD 31) m e ∧
      (m * 2 ^ e : ℚ) = magValue 23 (-149) (b.toNat % 2 ^ 31)) ∧
    (b.toNat % 2 ^ 31 = 255 * 2 ^ 23 → Datum.ofBits32 b = .inf (b.getLsbD 31)) ∧
    (255 * 2 ^ 23 < b.toNat % 2 ^ 31 → Datum.ofBits32 b = .nan) := by
  rw [ofBits32_eq]
  refine ⟨datumOf_finite _ _, fun h => ?_, fun h => ?_⟩
  · rw [h]
    exact datumOf_infinity 23 255 _ _
  · rw [show b.toNat % 2 ^ 31 / 2 ^ 23 = 255 by omega]
    exact datumOf_nan _ _ (by omega)

/-! ## Packing -/

/-- The value of a finite pattern rounds to that pattern only. -/
theorem IsRounded.eq_of_magValue {frac : Nat} {qmin : Int} {infMag p r : Nat} (hp : p < infMag)
    (h : IsRounded frac qmin infMag (magValue frac qmin p) r) : r = p := by
  have hV := magValue_strictMono frac qmin
  have hlast : magValue frac qmin p ≤ magValue frac qmin (infMag - 1) := hV.monotone (by omega)
  have hinf : magValue frac qmin (infMag - 1) < magValue frac qmin infMag := hV (by omega)
  rw [IsRounded, if_pos (by linarith)] at h
  by_contra hne
  rcases h.2 p hp (Ne.symm hne) with hlt | ⟨heq, -⟩
  · rw [sub_self, abs_zero] at hlt
    exact absurd hlt (abs_nonneg _).not_gt
  · rw [sub_self, abs_zero, abs_eq_zero, sub_eq_zero] at heq
    exact hne (hV.injective heq).symm

/-- A finite binary64 magnitude is computed back from its value. -/
theorem mag64_of_value {m p : Nat} {e : Int} (hp : p < infMag64) (h : (m * 2 ^ e : ℚ) = magValue 52 (-1074) p) :
    mag64 m 1 e = p := by
  rcases Nat.eq_zero_or_pos m with rfl | hm
  · rw [Nat.cast_zero, zero_mul, ← magValue_zero 52 (-1074)] at h
    rw [mag64_zero]
    exact (magValue_strictMono 52 (-1074)).injective h
  · have hr := mag64_isRounded e hm one_pos
    rw [Nat.cast_one, div_one, h] at hr
    exact hr.eq_of_magValue hp

theorem mag64_lt (n d : Nat) (e : Int) : mag64 n d e < 2 ^ 63 := by
  have h : mag64 n d e ≤ infMag64 := by
    unfold mag64 magBits
    split
    · exact Nat.zero_le _
    · exact min_le_right ..
  exact h.trans_lt (by decide)

theorem pack64_toNat (neg : Bool) {p : Nat} (hp : p < 2 ^ 63) :
    (pack64 neg p).toNat = p + if neg then 2 ^ 63 else 0 := by
  rw [pack64, BitVec.toNat_ofNat, Nat.mod_eq_of_lt]
  split <;> omega

theorem sign64_eq (b : F64) : b.getLsbD 63 = decide (2 ^ 63 ≤ b.toNat) :=
  (BitVec.msb_eq_getLsbD_last b).symm.trans (BitVec.msb_eq_decide b)

theorem pack64_sign (neg : Bool) {p : Nat} (hp : p < 2 ^ 63) : (pack64 neg p).getLsbD 63 = neg := by
  rw [sign64_eq, pack64_toNat neg hp]
  cases neg
  · exact decide_eq_false (by rw [if_neg Bool.false_ne_true]; omega)
  · exact decide_eq_true (Nat.le_add_left ..)

theorem pack64_magnitude (neg : Bool) {p : Nat} (hp : p < 2 ^ 63) : (pack64 neg p).toNat % 2 ^ 63 = p := by
  rw [pack64_toNat neg hp]
  split <;> omega

/-- A pattern is its sign and its magnitude. -/
theorem pack64_sign_magnitude (b : F64) : pack64 (b.getLsbD 63) (b.toNat % 2 ^ 63) = b := by
  have hb := b.isLt
  apply BitVec.eq_of_toNat_eq
  rw [pack64_toNat _ (Nat.mod_lt _ (by decide)), sign64_eq]
  simp only [decide_eq_true_eq]
  split <;> omega

/-- A binary64 pattern that is no NaN is packed back from the datum it is read as. -/
theorem bits64_ofBits64 (free : BitVec 64) (b : F64) (h : Datum.ofBits64 b ≠ .nan) :
    bits64 free (Datum.ofBits64 b) = b := by
  obtain ⟨hfin, hinf, hnan⟩ := ofBits64_spec b
  have hb := pack64_sign_magnitude b
  rcases lt_trichotomy (b.toNat % 2 ^ 63) (2047 * 2 ^ 52) with hp | hp | hp
  · obtain ⟨m, e, hd, hv⟩ := hfin hp
    rw [hd, bits64, mag64_of_value hp hv, hb]
  · rw [hinf hp, bits64, infMag64, ← hp, hb]
  · exact absurd (hnan hp) h

/-- Settles O17: the datum is the value by the cases of `datumOf`, and a finite value rounds to its own pattern. -/
theorem binary64RoundTrips : Obligations.Binary64RoundTrips :=
  ⟨bits64_ofBits64, ofBits64_spec, ofBits32_spec⟩

/-! ## The product and the quotient -/

/-- Packing the rounded magnitude gives the binary64 value of that sign. -/
theorem pack64_isF64 (neg : Bool) {n d : Nat} (e : Int) (hn : 0 < n) (hd : 0 < d) :
    IsF64 neg (n / d * 2 ^ e) (pack64 neg (mag64 n d e)) := by
  refine ⟨pack64_sign neg (mag64_lt n d e), ?_⟩
  rw [pack64_magnitude neg (mag64_lt n d e)]
  exact mag64_isRounded e hn hd

theorem mulF64_isF64 (s t : Bool) {m n : Nat} (e f : Int) (hm : 0 < m) (hn : 0 < n) :
    ∃ b, mulF64 (.fin s m e) (.fin t n f) = Datum.ofBits64 b ∧ IsF64 (s ^^ t) (m * 2 ^ e * (n * 2 ^ f)) b := by
  have h : (m * 2 ^ e * (n * 2 ^ f) : ℚ) = (m * n : Nat) / (1 : Nat) * 2 ^ (e + f) := by
    rw [zpow_add₀ two_ne_zero]
    push_cast
    ring
  exact ⟨_, rfl, h ▸ pack64_isF64 _ _ (Nat.mul_pos hm hn) one_pos⟩

theorem divF64_isF64 (s t : Bool) {m n : Nat} (e f : Int) (hm : 0 < m) (hn : 0 < n) :
    ∃ b, divF64 (.fin s m e) (.fin t n f) = Datum.ofBits64 b ∧ IsF64 (s ^^ t) (m * 2 ^ e / (n * 2 ^ f)) b := by
  have h : (m * 2 ^ e / (n * 2 ^ f) : ℚ) = m / n * 2 ^ (e - f) := by
    rw [zpow_sub₀ two_ne_zero, mul_div_mul_comm]
  exact ⟨_, if_neg hn.ne', h ▸ pack64_isF64 _ _ hm hn⟩

/-- A signed zero is its sign bit. -/
theorem bits64_zero (free : BitVec 64) (neg : Bool) (e : Int) :
    (bits64 free (.fin neg 0 e)).toNat = if neg then 2 ^ 63 else 0 := by
  rw [bits64, mag64_zero, pack64_toNat neg (by decide), zero_add]

theorem ofBits64_zero (neg : Bool) : Datum.ofBits64 (pack64 neg 0) = .fin neg 0 (-1074) := by
  cases neg <;> decide

theorem mulF64_zero (s t : Bool) {m n : Nat} (e f : Int) (h : m = 0 ∨ n = 0) :
    mulF64 (.fin s m e) (.fin t n f) = .fin (s ^^ t) 0 (-1074) := by
  rw [mulF64, Nat.mul_eq_zero.2 h, mag64_zero, ofBits64_zero]

theorem divF64_zero (s t : Bool) {n : Nat} (e f : Int) (hn : 0 < n) :
    divF64 (.fin s 0 e) (.fin t n f) = .fin (s ^^ t) 0 (-1074) := by
  rw [divF64, if_neg hn.ne', mag64_zero, ofBits64_zero]

/-- Settles O60: finite results by `mag64_isRounded` on the exact product or quotient, zero results by their sign bit,
the other special results by the cases of `mulF64` and `divF64`. -/
theorem productAndQuotientAreRounded : Obligations.ProductAndQuotientAreRounded := by
  refine ⟨fun s t m n e f hm hn => ⟨mulF64_isF64 s t e f hm hn, divF64_isF64 s t e f hm hn⟩,
    fun x => ?nan, fun _ _ => ⟨rfl, rfl⟩,
    fun s t m e hm => ⟨if_neg hm.ne', if_neg hm.ne'⟩, fun _ _ _ => ⟨rfl, rfl⟩, fun _ _ _ _ => rfl,
    fun free s t m e => bits64_zero free _ 0, fun s t m e f hm => ?byZero, fun _ _ _ _ => rfl,
    fun free s t m n e f h => ?zeroProduct, fun free s t n e f hn => ?zeroQuotient⟩
  case nan => cases x <;> exact ⟨rfl, rfl, rfl, rfl⟩
  case byZero => rw [divF64, if_pos rfl, if_neg hm.ne']
  case zeroProduct => rw [mulF64_zero s t e f h, bits64_zero]
  case zeroQuotient => rw [divF64_zero s t e f hn, bits64_zero]

end Sys2Proof.Machine
end

section
/-!
PROOFS. The state (10_state.md): what INIT, CYCLE and SHUTDOWN can do, the frames of the operations, the first
invocations after reset, and the invariant of R44.
-/

namespace Sys2Proof.Machine

/-! ## What an operation can do -/

/-- The two ways an INIT that does not fault ends (R130, R131). -/
theorem execInit_cases {s t : State} (h : execInit s = .next t) :
    s.tstate = .closed ∧
      (s.port.acquire = .fail ∧ t = { s with initAnswer := .initFailed } ∨
        s.port.acquire = .ok ∧ t = s.initialise.recvTake) := by
  unfold execInit at h
  split at h
  · cases h
  · split at h <;> simp_all

/-- The two ways a SHUTDOWN ends (R134, R135). -/
theorem execShutdown_cases {s t : State} (h : execShutdown s = .next t) :
    s.tstate = .closed ∧ t = s ∨ s.tstate = .opened ∧ t = s.release := by
  unfold execShutdown at h
  split at h <;> simp_all

/-- Between operations the step runs the operation of the next invocation, with its signals at the port (R82). -/
theorem step_of_call {s : State} {c : Invocation} {rest : List Invocation} {i : Instr} (hp : s.phase = .idle)
    (hc : s.calls = c :: rest) (hi : decodeOp c.op = some i) : step s = exec i (s.present c rest) := by
  simp [step, fetch, hp, hc, hi]

/-- An invocation of INIT while CLOSED, whose Acquire succeeds, is answered (R130). -/
theorem step_of_init {s : State} {c : Invocation} {rest : List Invocation} (hp : s.phase = .idle)
    (ht : s.tstate = .closed) (hc : s.calls = c :: rest) (hop : c.op = 0b01#2) (ha : c.acquire = .ok) :
    step s = .next (s.present c rest).initialise.recvTake := by
  rw [step_of_call hp hc (i := .init) (by rw [hop]; rfl)]
  simp [exec, execInit, ht, ha]

/-- An invocation of CYCLE while OPEN is answered (R93). -/
theorem step_of_cycle {s : State} {c : Invocation} {rest : List Invocation} (hp : s.phase = .idle)
    (ht : s.tstate = .opened) (hc : s.calls = c :: rest) (hop : c.op = 0b10#2) :
    step s = .next (s.present c rest).cycleBody := by
  rw [step_of_call hp hc (i := .cycle) (by rw [hop]; rfl)]
  exact execCycle_of_opened _ ht

/-- A CYCLE latches the frame it builds and puts its encoding in TXBUF, however it ends (R93, R112). -/
theorem execCycle_frame {s t : State} (h : execCycle s = .next t) :
    t.cmdLatch = s.cycleFrame ∧ t.txbuf = encodeCmd s.cycleFrame := by
  rcases execCycle_cases s h with ⟨-, rfl⟩ | ⟨-, -, rfl⟩ | ⟨-, b, -, -, -, rfl⟩ | ⟨-, b, f, -, -, -, rfl⟩ <;>
    simp [State.awaiting]

/-- A CYCLE ends between operations, however it ends (R31). -/
theorem execCycle_phase {s t : State} (h : execCycle s = .next t) : t.phase = .idle := by
  rcases execCycle_cases s h with ⟨-, rfl⟩ | ⟨-, -, rfl⟩ | ⟨-, b, -, -, -, rfl⟩ | ⟨-, b, f, -, -, -, rfl⟩ <;> rfl

/-! ## Frames of the operations -/

/-- Settles O26: all five instructions are BUILD of a kind, which only latches that kind's frame. -/
theorem commandKindsFrame : Obligations.CommandKindsFrame := by
  intro i e s t hi h
  obtain ⟨k, rfl⟩ : ∃ k, i = kindInstr k e := by
    simp only [List.mem_cons, List.not_mem_nil, or_false] at hi
    rcases hi with rfl | rfl | rfl | rfl | rfl
    exacts [⟨.run, rfl⟩, ⟨.dirsetup, rfl⟩, ⟨.accel, rfl⟩, ⟨.pwmfreq, rfl⟩, ⟨.idle, rfl⟩]
  rw [exec_kindInstr] at h
  cases h
  rfl

/-- Settles O49: no way a CYCLE ends writes the transport's state, the port or the calls, and RXBUF is written only
where the Recv took the oldest datagram. -/
theorem cycleFrameCondition : Obligations.CycleFrameCondition := by
  intro s t h
  have taken {b : List Byte} (hr : s.port.recv = .deliver) (hq : s.queue.head? = some b) :
      s.queue = b :: queueAfterRecv s.port.recv s.queue := by
    obtain ⟨q, hq⟩ := List.head?_eq_some_iff.1 hq
    simp [hr, hq, queueAfterRecv]
  rcases execCycle_cases s h with ⟨-, rfl⟩ | ⟨-, -, rfl⟩ | ⟨-, b, hr, hq, -, rfl⟩ | ⟨-, b, f, hr, hq, -, rfl⟩
  · simp
  · simp [State.awaiting]
  · simpa [State.awaiting] using Or.inr (taken hr hq)
  · simpa [State.awaiting] using Or.inr (taken hr hq)

/-- Settles O54: INIT, CYCLE and SHUTDOWN end in phase IDLE, and between operations nothing else is run. -/
theorem operationsEndIdle : Obligations.OperationsEndIdle := by
  intro s t hp h
  rcases step_cases s h with ⟨-, -, rfl⟩ | ⟨c, rest, i, -, -, hi, he⟩ | hr
  · exact hp
  · rcases decodeOp_cases hi with rfl | rfl | rfl
    · rcases execInit_cases he with ⟨-, ⟨-, rfl⟩ | ⟨-, rfl⟩⟩
      · exact hp
      · simp
    · exact execCycle_phase he
    · rcases execShutdown_cases he with ⟨-, rfl⟩ | ⟨-, rfl⟩
      · exact hp
      · rfl
  · simp [hp] at hr

/-! ## From reset -/

/-- Settles O55: the step runs INIT, whose values after reset are those of reset. -/
theorem resetHoldsInitValues : Obligations.ResetHoldsInitValues := by
  refine ⟨by decide, fun c hop ha => ?_⟩
  rw [step_of_init rfl rfl rfl hop ha]
  cases hr : c.recv <;> simp [State.recvTake, State.initialise, State.present, State.reset, queueAfterRecv, hr]

/-- While OPEN with `ready` 0 and no acknowledgment, a CYCLE sends CMD_DIRSETUP (R98, R99). -/
theorem step_of_cycle_without_acks {s : State} {c : Invocation} {rest : List Invocation} (hp : s.phase = .idle)
    (ht : s.tstate = .opened) (hc : s.calls = c :: rest) (hop : c.op = 0b10#2) (hr : s.ready = false)
    (hf : s.fbLatch = FeedbackFrame.zero) :
    ∃ t, step s = .next t ∧ t.cmdLatch = dirsetupFrame c.inputs.enable c.inputs ∧ t.txbuf = encodeCmd t.cmdLatch := by
  have hkind : frameKind false FeedbackFrame.zero.control = .dirsetup := by decide
  have hframe : (s.present c rest).cycleFrame = dirsetupFrame c.inputs.enable c.inputs := by
    simp [State.cycleFrame, hr, hf, hkind, kindFrame]
  obtain ⟨hcmd, htx⟩ := execCycle_frame (execCycle_of_opened (s.present c rest) ht)
  exact ⟨_, step_of_cycle hp ht hc hop, hcmd.trans hframe, htx.trans (by rw [hcmd])⟩

/-- Settles O56: INIT leaves `ready` 0 and no acknowledgment, so the CYCLE after it sends CMD_DIRSETUP. -/
theorem firstCycleSendsDirsetup : Obligations.FirstCycleSendsDirsetup := by
  intro i c hi ha hc
  have hinit := step_of_init (s := { State.reset with calls := [i, c] }) rfl rfl rfl hi ha
  obtain ⟨t, hcycle, hframe⟩ :=
    step_of_cycle_without_acks (s := ({ State.reset with calls := [i, c] }.present i [c]).initialise.recvTake)
      (rest := []) (by simp) (by simp) (by simp) hc (by simp) (by simp)
  exact ⟨t, run_succ_of_step hinit (run_succ_of_step hcycle rfl), hframe⟩

/-! ## The frames the block may emit (R76, R79) -/

theorem ioWellFormed_packIo (d : Channels Bool) : ioWellFormed (packIo d) = true := by
  obtain ⟨c0, c1, c2, c3, c4, c5⟩ := d
  revert c0 c1 c2 c3 c4 c5
  decide

/-- `ZERO_CMD` is a CMD_IDLE frame without ENABLE (R41, R100). -/
theorem zeroCmd_wellFormed : CommandFrame.zero.wellFormed = true := by decide

theorem kindFrame_control (k : FrameKind) (draw : Nat) (e : Bool) (x : HostInputs) :
    (kindFrame k draw e x).control = kindBits k ||| enableBit e := by
  cases k <;> simp [kindFrame, runFrame, dirsetupFrame, accelFrame, pwmfreqFrame, idleFrame, kindBits]

/-- Every frame BUILD writes is one the block may emit (R100 to R105). -/
theorem kindFrame_wellFormed (k : FrameKind) (draw : Nat) (e : Bool) (x : HostInputs) :
    (kindFrame k draw e x).wellFormed = true := by
  have hk : kindOf (kindFrame k draw e x).control = some k := by
    rw [kindFrame_control, Laws.EncodesWellFormed.kindOf_kindBits]
  unfold CommandFrame.wellFormed
  rw [hk]
  cases k with
  | run => exact ioWellFormed_packIo x.dout
  | dirsetup | accel | pwmfreq | idle => rfl

/-! ## The invariant (R44) -/

section Inv

variable {s : State} (h : s.Inv)

include h

theorem State.Inv.present (c : Invocation) (rest : List Invocation) : (s.present c rest).Inv := h

theorem State.Inv.enter (p : Phase) : (s.enter p).Inv := h

theorem State.Inv.sampleInputs : s.sampleInputs.Inv := h

theorem State.Inv.storeRxbuf (b : List Byte) : ({ s with rxbuf := b } : State).Inv := h

theorem State.Inv.recvTake : s.recvTake.Inv := by simpa [State.Inv, Memory.wf] using h

theorem State.Inv.latchCmd {c : CommandFrame} (hc : c.wellFormed = true) : (s.latchCmd c).Inv :=
  ⟨h.1, fun ho => ⟨hc, (h.2 ho).2⟩⟩

theorem State.Inv.failCycle (o : LastOutcome) : (s.failCycle o).Inv :=
  ⟨h.1, fun ho => ⟨(h.2 ho).1, nofun⟩⟩

theorem State.Inv.transmit : s.transmit.Inv := ⟨by simp [Memory.wf, Config.cmdWireLen], h.2⟩

/-- `ready` and `fbLatch` are written from the same frame (R117, R119). -/
theorem State.Inv.acceptFb (f : FeedbackFrame) : (s.acceptFb f).Inv := ⟨h.1, fun ho => ⟨(h.2 ho).1, id⟩⟩

theorem State.Inv.initialise : s.initialise.Inv := ⟨h.1, fun _ => ⟨zeroCmd_wellFormed, nofun⟩⟩

theorem State.Inv.release : s.release.Inv := ⟨h.1, nofun⟩

theorem State.Inv.sendPhase : s.sendPhase.Inv := by
  unfold State.sendPhase
  split
  · exact h.transmit.failCycle _
  · exact h.transmit.enter _

theorem State.Inv.recvPhase : s.recvPhase.Inv := by
  unfold State.recvPhase
  split
  · exact h.recvTake.failCycle _
  · have hb := h.recvTake.storeRxbuf
    dsimp only
    split
    · exact (hb _).failCycle _
    · exact (hb _).enter _

theorem State.Inv.updatePhase : s.updatePhase.Inv := by
  unfold State.updatePhase
  split
  · exact h.acceptFb _
  · exact h.failCycle _

theorem State.Inv.receive : s.receive.Inv := by
  unfold State.receive
  dsimp only
  split
  · exact h.recvPhase.updatePhase
  · exact h.recvPhase

theorem State.Inv.exchange : s.exchange.Inv := by
  unfold State.exchange
  dsimp only
  split
  · exact h.sendPhase.receive
  · exact h.sendPhase

theorem State.Inv.cycleBody : s.cycleBody.Inv := by
  rw [cycleBody_eq]
  exact (h.sampleInputs.latchCmd (kindFrame_wellFormed ..)).exchange

theorem State.Inv.execInit {t : State} (he : execInit s = .next t) : t.Inv := by
  rcases execInit_cases he with ⟨-, ⟨-, rfl⟩ | ⟨-, rfl⟩⟩
  · exact h
  · exact h.initialise.recvTake

theorem State.Inv.execCycle {t : State} (he : execCycle s = .next t) : t.Inv := by
  obtain ⟨-, rfl⟩ := (execCycle_eq_next_iff s t).1 he
  exact h.cycleBody

theorem State.Inv.execShutdown {t : State} (he : execShutdown s = .next t) : t.Inv := by
  rcases execShutdown_cases he with ⟨-, rfl⟩ | ⟨-, rfl⟩
  · exact h
  · exact h.release

end Inv

/-- Settles O57: each operation and each phase of a CYCLE keeps the invariant, and a step is one of them. -/
theorem everyStepKeepsInvariant : Obligations.EveryStepKeepsInvariant := by
  intro s t h hs
  rcases step_cases s hs with ⟨-, -, rfl⟩ | ⟨c, rest, i, -, -, hi, he⟩ | ⟨-, rfl⟩ | ⟨-, rfl⟩ | ⟨-, rfl⟩ |
    ⟨-, rfl⟩ | ⟨-, rfl⟩
  · exact h
  · have hc := h.present c rest
    rcases decodeOp_cases hi with rfl | rfl | rfl
    · exact hc.execInit he
    · exact hc.execCycle he
    · exact hc.execShutdown he
  · exact h.sampleInputs
  · exact h.latchCmd (kindFrame_wellFormed ..)
  · exact h.sendPhase
  · exact h.recvPhase
  · exact h.updatePhase

theorem State.Inv.reset : State.reset.Inv := ⟨by decide, nofun⟩

/-- Settles O58: INIT is answered from reset, and keeps the invariant of reset. -/
theorem resetHasInvariant : Obligations.ResetHasInvariant := by
  refine ⟨State.Inv.reset, fun c hop ha => ⟨_, step_of_init rfl rfl rfl hop ha, by simp, ?_⟩⟩
  have hcall : ({ State.reset with calls := [c] } : State).Inv := State.Inv.reset
  exact (hcall.present c []).initialise.recvTake

end Sys2Proof.Machine
end

section
/-!
PROOFS. The encodings (30_encoding.md): fields read from a frame buffer, the byte maps of the two frames, the decoder
by length, control byte and select code, and the instruction a step runs.
-/

namespace Sys2Proof

/-! ## Arrays by index -/

@[simp] theorem Axes.get_ofFn {α : Type} (f : Fin 3 → α) (i : Fin 3) : (Axes.ofFn f).get i = f i := by
  fin_cases i <;> rfl

@[simp] theorem Channels.get_ofFn {α : Type} (f : Fin 6 → α) (j : Fin 6) : (Channels.ofFn f).get j = f j := by
  fin_cases j <;> rfl

@[simp] theorem Octet.get_ofFn {α : Type} (f : Fin 8 → α) (k : Fin 8) : (Octet.ofFn f).get k = f k := by
  fin_cases k <;> rfl

@[simp] theorem Axes.ofFn_get {α : Type} (x : Axes α) : Axes.ofFn x.get = x := rfl

@[simp] theorem Channels.ofFn_get {α : Type} (x : Channels α) : Channels.ofFn x.get = x := rfl

theorem Axes.getElem?_toList {α : Type} (x : Axes α) (i : Fin 3) : x.toList[i.val]? = some (x.get i) := by
  fin_cases i <;> rfl

theorem Channels.getElem?_toList {α : Type} (x : Channels α) (j : Fin 6) : x.toList[j.val]? = some (x.get j) := by
  fin_cases j <;> rfl

/-! ## The bytes of a field that is read (R47, R72 to R74) -/

/-- Byte `k` of a word is its value shifted right by `8k` (R48). -/
theorem extractLsb'_ofNat_byte {w k : Nat} (v : Nat) (hk : 8 * k + 8 ≤ w) :
    (BitVec.ofNat w v).extractLsb' (8 * k) 8 = BitVec.ofNat 8 (v / 256 ^ k) := by
  have hpow : 256 ^ k = 2 ^ (8 * k) := by rw [pow_mul]; rfl
  refine BitVec.eq_of_getLsbD_eq fun i hi => ?_
  have hw : 8 * k + i < w := by omega
  simp only [BitVec.getLsbD_extractLsb', BitVec.getLsbD_ofNat, hpow, hi, hw, Nat.testBit_div_two_pow, Nat.add_comm i,
    decide_true, Bool.true_and]

theorem getElem?_leBytes {n k : Nat} (v : Nat) (hk : k < n) :
    (leBytes n v)[k]? = some (BitVec.ofNat 8 (v / 256 ^ k)) := by
  induction n generalizing v k with
  | zero => omega
  | succ n ih =>
    cases k with
    | zero => simp [leBytes]
    | succ k => simp [leBytes, ih (v / 256) (by omega : k < n), pow_succ', Nat.div_div_eq_div_mul]

/-- Where a field is read, the buffer holds its bytes, least significant first. -/
theorem getElem?_of_fieldAt {b : List Byte} {o n k w : Nat} (hb : o + n ≤ b.length) (hk : k < n) (hw : 8 * n ≤ w) :
    b[o + k]? = some ((BitVec.ofNat w (fieldAt .little b o n)).extractLsb' (8 * k) 8) := by
  have hlen : (memRead b o n).length = n := by simp [memRead]; omega
  have hbytes : leBytes n (fieldAt .little b o n) = memRead b o n := by
    simpa [hlen, fieldAt, inOrder] using leBytes_leValue (memRead b o n)
  calc b[o + k]? = (memRead b o n)[k]? := by simp [memRead, hk]
    _ = _ := by rw [← hbytes, getElem?_leBytes _ hk, extractLsb'_ofNat_byte _ (by omega)]

theorem fieldAt_one (en : Endian) {b : List Byte} {o : Nat} {x : Byte} (h : b[o]? = some x) :
    fieldAt en b o 1 = x.toNat := by
  obtain ⟨ho, rfl⟩ := List.getElem?_eq_some_iff.1 h
  simp [fieldAt, memRead, List.take_one, List.head?_drop, ho, inOrder_one, leValue]

theorem getElem?_of_fieldAt_one (en : Endian) {b : List Byte} {o : Nat} (ho : o < b.length) :
    b[o]? = some (BitVec.ofNat 8 (fieldAt en b o 1)) := by
  have hb := List.getElem?_eq_getElem ho
  rw [fieldAt_one en hb, hb, BitVec.ofNat_toNat, BitVec.setWidth_eq]

/-! ## Reading what was written (R90) -/

theorem fieldAt_append (en : Endian) (done rest : List Byte) (n v : Nat) :
    fieldAt en (done ++ inOrder en (leBytes n v) ++ rest) done.length n = v % 256 ^ n := by
  simp [fieldAt, memRead, leValue_leBytes]

/-- Field `i` of an array written from offset `done.length` on is its element `i`. -/
theorem fieldAt_flatMap (en : Endian) (done rest : List Byte) (n : Nat) {vs : List Nat} {i v : Nat}
    (h : vs[i]? = some v) :
    fieldAt en (done ++ vs.flatMap (fun v => inOrder en (leBytes n v)) ++ rest) (done.length + n * i) n =
      v % 256 ^ n := by
  induction vs generalizing done i with
  | nil => simp at h
  | cons u us ih =>
    cases i with
    | zero =>
      obtain rfl : u = v := by simpa using h
      simpa using fieldAt_append en done (us.flatMap (fun v => inOrder en (leBytes n v)) ++ rest) n u
    | succ i =>
      have := ih (done ++ inOrder en (leBytes n u)) (i := i) (by simpa using h)
      simpa [Nat.mul_succ, Nat.add_assoc, Nat.add_comm n] using this

/-- The same for an array of words, read into a word of their width. -/
theorem ofNat_fieldAt_flatMap (en : Endian) (done rest : List Byte) {w n o i : Nat} {xs : List (BitVec w)}
    {x : BitVec w} (hw : 256 ^ n = 2 ^ w) (ho : done.length = o) (h : xs[i]? = some x) :
    BitVec.ofNat w (fieldAt en
      (done ++ (xs.map BitVec.toNat).flatMap (fun v => inOrder en (leBytes n v)) ++ rest) (o + n * i) n) = x := by
  subst ho
  rw [fieldAt_flatMap en done rest n (v := x.toNat) (by simp [h]), hw]
  exact BitVec.eq_of_toNat_eq (by simp)

/-- Reading the fields of R66 gives back the FeedbackFrame they were written from. -/
theorem readFb_fbPayload (en : Endian) (f : FeedbackFrame) : readFb en (fbPayload en f) = f := by
  have hcontrol := fieldAt_one en (b := fbPayload en f) (o := 0) (x := f.control) rfl
  have hio := fieldAt_one en (b := fbPayload en f) (o := 1) (x := f.io) rfl
  have hpos (i : Fin 3) : BitVec.ofNat 32 (fieldAt en (fbPayload en f) (2 + 4 * i.val) 4) = f.pos.get i :=
    ofNat_fieldAt_flatMap en [f.control, f.io] _ rfl rfl (f.pos.getElem?_toList i)
  have hvel (i : Fin 3) : BitVec.ofNat 32 (fieldAt en (fbPayload en f) (14 + 4 * i.val) 4) = f.vel.get i := by
    rw [← List.append_nil (fbPayload en f)]
    exact ofNat_fieldAt_flatMap en _ _ rfl (by simp [Axes.toList]) (f.vel.getElem?_toList i)
  simp [readFb, hcontrol, hio, hpos, hvel]

/-- Reading the fields of R65 gives back the CommandFrame they were written from, whatever follows them. -/
theorem readCmd_cmdPayload_append (en : Endian) (c : CommandFrame) (rest : List Byte) :
    readCmd en (cmdPayload en c ++ rest) = c := by
  have hcontrol := fieldAt_one en (b := cmdPayload en c ++ rest) (o := 0) (x := c.control) rfl
  have hio := fieldAt_one en (b := cmdPayload en c ++ rest) (o := 1) (x := c.io) rfl
  have hpwm (j : Fin 6) :
      BitVec.ofNat 16 (fieldAt en (cmdPayload en c ++ rest) (2 + 2 * j.val) 2) = c.pwm.get j := by
    rw [cmdPayload, List.append_assoc, List.append_assoc]
    exact ofNat_fieldAt_flatMap en [c.control, c.io] _ rfl rfl (c.pwm.getElem?_toList j)
  have hpos (i : Fin 3) :
      BitVec.ofNat 32 (fieldAt en (cmdPayload en c ++ rest) (14 + 4 * i.val) 4) = c.pos.get i := by
    rw [cmdPayload, List.append_assoc]
    exact ofNat_fieldAt_flatMap en _ _ rfl (by simp [Channels.toList]) (c.pos.getElem?_toList i)
  have hvel (i : Fin 3) :
      BitVec.ofNat 32 (fieldAt en (cmdPayload en c ++ rest) (26 + 4 * i.val) 4) = c.vel.get i :=
    ofNat_fieldAt_flatMap en _ _ rfl (by simp [Channels.toList, Axes.toList]) (c.vel.getElem?_toList i)
  simp [readCmd, hcontrol, hio, hpwm, hpos, hvel]

theorem decodeFb_encodeFb (f : FeedbackFrame) : decodeFb (encodeFb f) = .ok f :=
  (decodeFb_eq_ok_iff _ _).2 ⟨encodeFb_length f, by rw [encodeFb, encodeFbIn_eq, readFb_fbPayload]⟩

theorem readCmd_encodeCmd (c : CommandFrame) : readCmd Config.endian (encodeCmd c) = c := by
  rw [encodeCmd, encodeCmdIn_eq, readCmd_cmdPayload_append]

/-! ## The control byte (R67, R76, R77) -/

/-- No two frame kinds have the same control bits (R69, R76). -/
theorem kindBits_inj {k l : FrameKind} : kindBits k = kindBits l ↔ k = l := by
  cases k <;> cases l <;> decide

/-- A control byte is of the kind whose bits it has, ENABLE left aside (R77). -/
theorem kindOf_eq_some_iff (c : Byte) (k : FrameKind) : kindOf c = some k ↔ c &&& 0x7F = kindBits k := by
  have hmask : ~~~Config.flagEnable = 0x7F := by decide
  have hsome {l : FrameKind} (h : c &&& 0x7F = kindBits l) : some l = some k ↔ c &&& 0x7F = kindBits k := by
    rw [h, kindBits_inj, Option.some_inj]
  unfold kindOf
  rw [hmask]
  dsimp only
  split_ifs with hrun hdirsetup haccel hpwmfreq hidle
  · exact hsome hrun
  · exact hsome hdirsetup
  · exact hsome haccel
  · exact hsome hpwmfreq
  · exact hsome hidle
  · cases k <;> simp_all

theorem enableOf_eq (c : Byte) : enableOf c = c.getLsbD 7 := by
  revert c; decide

theorem enableOf_kindBits (k : FrameKind) (e : Bool) : enableOf (kindBits k ||| enableBit e) = e := by
  cases k <;> cases e <;> decide

/-- Settles O11: `kindOf_eq_some_iff` with the five kinds' bits. -/
theorem controlByteKinds : Obligations.ControlByteKinds := fun c =>
  ⟨kindOf_eq_some_iff c .run, kindOf_eq_some_iff c .dirsetup, kindOf_eq_some_iff c .accel,
    kindOf_eq_some_iff c .pwmfreq, kindOf_eq_some_iff c .idle⟩

/-! ## The decoder (R79, R80, R82) -/

/-- A 39-byte datagram is decoded by its control byte. -/
theorem decode_of_head? {b : List Byte} {c : Byte} (hl : b.length = 39) (hc : b.head? = some c) :
    decode (.datagram b) = decodeControl c := by
  simp [decode, decodeDatagram, Config.cmdWireLen, hl, hc]

theorem decodeControl_of_kind {c : Byte} {k : FrameKind} (h : kindOf c = some k) :
    decodeControl c = .instr (kindInstr k (c.getLsbD 7)) := by
  simp [decodeControl, h, enableOf_eq]

theorem decodeControl_of_reserved {c : Byte} (h : kindOf c = none) : decodeControl c = .rejected .reservedControl := by
  simp [decodeControl, h]

theorem decodeControl_ne_fb (c : Byte) (f : FeedbackFrame) : decodeControl c ≠ .instr (.fb f) := by
  cases h : kindOf c with
  | none => simp [decodeControl, h]
  | some k => cases k <;> simp [decodeControl, h, kindInstr]

/-- A datagram is decoded as a feedback frame exactly where DECODE_FB accepts it (R80, R88). -/
theorem decode_eq_fb_iff (b : List Byte) (f : FeedbackFrame) :
    decode (.datagram b) = .instr (.fb f) ↔ decodeFb b = .ok f := by
  by_cases hl : b.length = 39
  · simp [decode, decodeDatagram, Config.cmdWireLen, hl, decodeControl_ne_fb, decodeFb_eq_ok_iff]
  · cases h : decodeFb b <;> simp [decode, decodeDatagram, Config.cmdWireLen, hl, h]

theorem decode_of_badLength {b : List Byte} (h39 : b.length ≠ 39) (h26 : b.length ≠ 26) :
    decode (.datagram b) = .rejected .badLength := by
  simp [decode, decodeDatagram, Config.cmdWireLen, h39, (decodeFb_eq_sizeMismatch_iff b).2 h26]

theorem decode_select_eq_instr_iff (op : BitVec 2) (i : Instr) :
    decode (.select op) = .instr i ↔ decodeOp op = some i := by
  cases h : decodeOp op <;> simp [decode, h]

/-- Every frame kind's datagram decodes to it, with its ENABLE bit (R76). -/
theorem decode_encodeKind (k : FrameKind) (e : Bool) :
    decode (.datagram (encodeKind k e)) = .instr (kindInstr k e) := by
  rw [encodeKind, decode_of_head? (encodeCmd_length _) (encodeCmd_head? _),
    decodeControl_of_kind (Laws.EncodesWellFormed.kindOf_kindBits k e), ← enableOf_eq, enableOf_kindBits]

theorem decode_encodeFb (f : FeedbackFrame) : decode (.datagram (encodeFb f)) = .instr (.fb f) :=
  (decode_eq_fb_iff _ _).2 (decodeFb_encodeFb f)

/-- Settles O1: the command kinds by their control byte, FB by the codec's round trip, the operations by their select
code. -/
theorem decodeOfEncode : Obligations.DecodeOfEncode := by
  intro i _
  cases i with
  | cmdRun e => exact decode_encodeKind .run e
  | cmdDirsetup e => exact decode_encodeKind .dirsetup e
  | cmdAccel e => exact decode_encodeKind .accel e
  | cmdPwmfreq e => exact decode_encodeKind .pwmfreq e
  | cmdIdle e => exact decode_encodeKind .idle e
  | fb f => exact decode_encodeFb f
  | init | cycle | shutdown => rfl

/-- Settles O12: 39 bytes go by the control byte, of the other lengths only 26 is read, and code 00 names nothing. -/
theorem decoderAcceptsAndRefuses : Obligations.DecoderAcceptsAndRefuses := by
  refine ⟨fun b c hl hc => ?_, fun b => decode_of_badLength, rfl⟩
  rw [decode_of_head? hl (by rwa [List.head?_eq_getElem?])]
  exact ⟨fun k => decodeControl_of_kind, decodeControl_of_reserved⟩

/-- Settles O10: the command word by its control byte, the feedback word as the encoding of its frame. -/
theorem specWordsDecode : Obligations.SpecWordsDecode := by
  refine ⟨?command, ?feedback, rfl, rfl, rfl⟩
  case command =>
    rw [decode_of_head? (c := 0x81) rfl rfl]
    exact decodeControl_of_kind (k := .dirsetup) (by decide)
  case feedback =>
    have hfb : encodeFb { FeedbackFrame.zero with control := 0x07 } = [0x07] ++ List.replicate 25 0 := by decide
    rw [← hfb]
    exact decode_encodeFb _

/-! ## The byte maps (R65, R66) -/

/-- Settles O5: the byte map of the fields read from a datagram, which are those it was encoded from. -/
theorem commandDatagramLayout : Obligations.CommandDatagramLayout := by
  intro c
  have hlen := encodeCmd_length c
  have heq : encodeCmd c = cmdPayload Config.endian c ++ [checksum (cmdPayload Config.endian c)] := encodeCmdIn_eq _ c
  refine ⟨hlen, ?control, ?io, fun i k => ?pwm, fun i k => ⟨?pos, ?vel⟩, ?checksum⟩
  case control => rw [heq]; rfl
  case io => rw [heq]; rfl
  case pwm =>
    conv_rhs => rw [← readCmd_encodeCmd c, readCmd, Channels.get_ofFn]
    exact getElem?_of_fieldAt (by omega) k.isLt le_rfl
  case pos =>
    conv_rhs => rw [← readCmd_encodeCmd c, readCmd, Axes.get_ofFn]
    exact getElem?_of_fieldAt (by omega) k.isLt le_rfl
  case vel =>
    conv_rhs => rw [← readCmd_encodeCmd c, readCmd, Axes.get_ofFn]
    exact getElem?_of_fieldAt (by omega) k.isLt le_rfl
  case checksum =>
    rw [heq, ← cmdPayload_length Config.endian c, List.getElem?_concat_length, List.take_left]

/-- Settles O6: the byte map of the fields that DECODE_FB reads, and the length it asks for. -/
theorem feedbackDatagramLayout : Obligations.FeedbackDatagramLayout := by
  refine ⟨fun b => (decodeFb_eq_sizeMismatch_iff b).2,
    fun b hb => ⟨_, (decodeFb_eq_ok_iff b _).2 ⟨hb, rfl⟩, ?control, ?io, fun i k => ⟨?pos, ?vel⟩⟩⟩
  case control => exact getElem?_of_fieldAt_one _ (by omega)
  case io => exact getElem?_of_fieldAt_one _ (by omega)
  case pos =>
    rw [readFb, Axes.get_ofFn]
    exact getElem?_of_fieldAt (by omega) k.isLt le_rfl
  case vel =>
    rw [readFb, Axes.get_ofFn]
    exact getElem?_of_fieldAt (by omega) k.isLt le_rfl

end Sys2Proof

namespace Sys2Proof.Machine

/-! ## The io bytes (R70, R71) -/

/-- Bit `k` of the command `io` byte is output `k`, and 0 where there is none. -/
theorem packIo_getLsbD (d : Channels Bool) (k : Fin 8) : (packIo d).getLsbD k.val = d.toList[k.val]?.getD false := by
  obtain ⟨c0, c1, c2, c3, c4, c5⟩ := d
  revert c0 c1 c2 c3 c4 c5 k
  decide

/-- Settles O20: the bits of `packIo` are the six outputs and two zeros; `unpackIo` is bit by bit as it stands. -/
theorem ioBitsAreInOrder : Obligations.IoBitsAreInOrder :=
  ⟨fun d k => (packIo_getLsbD d (k.castLE (by decide))).trans (by simp [Channels.getElem?_toList]),
    fun d => ⟨packIo_getLsbD d 6, packIo_getLsbD d 7⟩, fun io k => by rw [unpackIo, Octet.get_ofFn]⟩

/-! ## The step (R31, R82, R98) -/

theorem step_of_build {s : State} (hp : s.phase = .build) :
    step s = exec (kindInstr (frameKind s.ready s.fbLatch.control) s.inp.enable) s := by
  simp [step, fetch, hp]

theorem step_of_update {s : State} {f : FeedbackFrame} (hp : s.phase = .update) (hf : decodeFb s.rxbuf = .ok f) :
    step s = exec (.fb f) s := by
  simp [step, fetch, hp, hf]

theorem step_of_opSelectNone {s : State} {c : Invocation} {rest : List Invocation} (hp : s.phase = .idle)
    (hc : s.calls = c :: rest) (hop : decodeOp c.op = none) : step s = .refused .opSelectNone := by
  simp [step, fetch, hp, hc, hop]

/-- Settles O51: the three phases in which the step runs an instruction. -/
theorem stepRunsDecodedInstruction : Obligations.StepRunsDecodedInstruction :=
  ⟨fun _ c _ i hp hc hi _ => step_of_call hp hc ((decode_select_eq_instr_iff c.op i).1 hi), fun _ => step_of_build,
    fun s f hp hf => step_of_update hp ((decode_eq_fb_iff s.rxbuf f).1 hf)⟩

/-- Settles O52: `decodeOp` names no operation for code 00. -/
theorem opSelectNoneIsRefused : Obligations.OpSelectNoneIsRefused := fun _ c _ hp hc hop =>
  step_of_opSelectNone hp hc (by rw [hop]; rfl)

end Sys2Proof.Machine
end

section
/-!
PROOFS. The frame codec (40_frame_codec.md): the checksum under append, reordering and a change of one byte, what
VERIFY_CMD accepts, and writing back the fields that were read from a datagram.
-/

namespace Sys2Proof

/-! ## The checksum (R84, R86) -/

/-- Changing one byte changes the fold by the same bits. -/
theorem xorFold_set (c d : Byte) {p : List Byte} {k : Nat} (hk : k < p.length) :
    xorFold c (p.set k (p[k] ^^^ d)) = xorFold c p ^^^ d := by
  induction p generalizing c k with
  | nil => simp at hk
  | cons b p ih =>
    cases k with
    | zero => exact (congrArg (xorFold · p) (BitVec.xor_assoc c b d).symm).trans (xorFold_start (c ^^^ b) d p)
    | succ k => exact ih (c ^^^ b) (Nat.lt_of_succ_lt_succ hk)

/-- The fold is the same in every order of the bytes. -/
theorem xorFold_perm (c : Byte) {p q : List Byte} (h : p.Perm q) : xorFold c p = xorFold c q :=
  h.foldl_eq' (fun x _ y _ z => by rw [BitVec.xor_assoc, BitVec.xor_comm x y, ← BitVec.xor_assoc]) c

theorem xorFold_concat (c : Byte) (p : List Byte) (x : Byte) : xorFold c (p ++ [x]) = xorFold c p ^^^ x :=
  xorFold_append c p [x]

theorem verifyCmd_iff (b : List Byte) :
    verifyCmd b = true ↔ b.length = 39 ∧ xorFold Config.checksumSeed b = 0 := by
  simp [verifyCmd, Config.cmdWireLen]

theorem verifyCmd_concat_iff (p : List Byte) (x : Byte) :
    verifyCmd (p ++ [x]) = true ↔ p.length = 38 ∧ x = checksum p := by
  rw [verifyCmd_iff, xorFold_concat, eq_comm (a := x)]
  simp [checksum]

/-- A datagram of 39 bytes is its first 38 and its last. -/
theorem take_concat_of_length {b : List Byte} (hl : b.length = 39) : b.take 38 ++ [b[38]] = b := by
  rw [List.take_append_getElem, List.take_of_length_le hl.le]

/-- The datagrams VERIFY_CMD accepts are 38 bytes followed by their checksum. -/
theorem verifyCmd_iff_getElem? (b : List Byte) :
    verifyCmd b = true ↔ b.length = 39 ∧ b[38]? = some (checksum (b.take 38)) := by
  by_cases hl : b.length = 39
  · conv_lhs => rw [← take_concat_of_length hl]
    rw [verifyCmd_concat_iff]
    simp [hl]
  · simp [verifyCmd_iff, hl]

theorem verifyCmd_encodeCmd (c : CommandFrame) : verifyCmd (encodeCmd c) = true := by
  rw [encodeCmd, encodeCmdIn_eq, verifyCmd_concat_iff]
  exact ⟨cmdPayload_length _ c, rfl⟩

/-! ## The byte order (R50, R51) -/

theorem inOrder_perm (en : Endian) (bs : List Byte) : (inOrder en bs).Perm bs := by
  cases en with
  | little => exact .refl bs
  | big => exact bs.reverse_perm

/-- Both byte orders write the same bytes of an array, in another order. -/
theorem flatMap_inOrder_perm (en en' : Endian) (n : Nat) (vs : List Nat) :
    (vs.flatMap fun v => inOrder en (leBytes n v)).Perm (vs.flatMap fun v => inOrder en' (leBytes n v)) :=
  List.Perm.flatMap_left vs fun _ _ => (inOrder_perm en _).trans (inOrder_perm en' _).symm

theorem cmdPayload_perm (en en' : Endian) (c : CommandFrame) : (cmdPayload en c).Perm (cmdPayload en' c) :=
  (((List.Perm.refl _).append (flatMap_inOrder_perm en en' 2 _)).append (flatMap_inOrder_perm en en' 4 _)).append
    (flatMap_inOrder_perm en en' 4 _)

theorem encodeCmdIn_getElem?_checksum (en : Endian) (c : CommandFrame) :
    (encodeCmdIn en c)[38]? = some (checksum (cmdPayload en c)) := by
  rw [encodeCmdIn_eq, ← cmdPayload_length en c, List.getElem?_concat_length]

/-! ## Writing what was read (R90) -/

theorem leValue_lt (bs : List Byte) : leValue bs < 256 ^ bs.length := by
  rw [← leBytes_leValue bs, leValue_leBytes, leBytes_length]
  exact Nat.mod_lt _ (by positivity)

theorem memRead_length {b : List Byte} {o n : Nat} (h : o + n ≤ b.length) : (memRead b o n).length = n := by
  simp [memRead]; omega

theorem memRead_add (b : List Byte) (o m n : Nat) : memRead b o (m + n) = memRead b o m ++ memRead b (o + m) n := by
  simp [memRead, List.take_add]

/-- A word read from its field is written as the bytes it was read from. -/
theorem inOrder_leBytes_fieldAt (en : Endian) {b : List Byte} {o n w : Nat} (hw : 256 ^ n = 2 ^ w)
    (h : o + n ≤ b.length) :
    inOrder en (leBytes n (BitVec.ofNat w (fieldAt en b o n)).toNat) = memRead b o n := by
  have hlen : (inOrder en (memRead b o n)).length = n := by simp [memRead_length h]
  have hlt : fieldAt en b o n < 2 ^ w := by simpa [fieldAt, hlen, hw] using leValue_lt (inOrder en (memRead b o n))
  have hbytes := leBytes_leValue (inOrder en (memRead b o n))
  rw [hlen] at hbytes
  rw [BitVec.toNat_ofNat, Nat.mod_eq_of_lt hlt, fieldAt, hbytes, inOrder_inOrder]

theorem ofNat_fieldAt_one (en : Endian) {b : List Byte} {o : Nat} (h : o + 1 ≤ b.length) :
    [BitVec.ofNat 8 (fieldAt en b o 1)] = memRead b o 1 := by
  rw [← inOrder_leBytes_fieldAt en (w := 8) rfl h, leBytes_one, inOrder_one]

/-- An array of `m` words read from consecutive fields is written as the bytes it was read from. -/
theorem flatMap_fieldAt (en : Endian) {b : List Byte} {o n w : Nat} (hw : 256 ^ n = 2 ^ w) {m : Nat}
    (h : o + n * m ≤ b.length) :
    (((List.range m).map fun i => BitVec.ofNat w (fieldAt en b (o + n * i) n)).map BitVec.toNat).flatMap
      (fun v => inOrder en (leBytes n v)) = memRead b o (n * m) := by
  induction m with
  | zero => simp [memRead]
  | succ m ih =>
    rw [Nat.mul_succ] at h ⊢
    have hfield := inOrder_leBytes_fieldAt en (b := b) (o := o + n * m) hw (by omega)
    rw [memRead_add, ← ih (by omega), ← hfield]
    simp [List.range_succ]

theorem cmdPayload_readCmd (en : Endian) {b : List Byte} (h : 38 ≤ b.length) :
    cmdPayload en (readCmd en b) = b.take 38 := by
  have hcontrol := ofNat_fieldAt_one en (b := b) (o := 0) (by omega)
  have hio := ofNat_fieldAt_one en (b := b) (o := 1) (by omega)
  have hpwm := flatMap_fieldAt en (b := b) (o := 2) (n := 2) (w := 16) rfl (m := 6) (by omega)
  have hpos := flatMap_fieldAt en (b := b) (o := 14) (n := 4) (w := 32) rfl (m := 3) (by omega)
  have hvel := flatMap_fieldAt en (b := b) (o := 26) (n := 4) (w := 32) rfl (m := 3) (by omega)
  calc cmdPayload en (readCmd en b)
      = memRead b 0 1 ++ memRead b 1 1 ++ memRead b 2 12 ++ memRead b 14 12 ++ memRead b 26 12 := by
        rw [← hcontrol, ← hio, ← hpwm, ← hpos, ← hvel]; rfl
    _ = memRead b 0 38 := by
        rw [← memRead_add b 0 1 1, ← memRead_add b 0 2 12, ← memRead_add b 0 14 12, ← memRead_add b 0 26 12]
    _ = b.take 38 := rfl

theorem fbPayload_readFb (en : Endian) {b : List Byte} (h : 26 ≤ b.length) :
    fbPayload en (readFb en b) = b.take 26 := by
  have hcontrol := ofNat_fieldAt_one en (b := b) (o := 0) (by omega)
  have hio := ofNat_fieldAt_one en (b := b) (o := 1) (by omega)
  have hpos := flatMap_fieldAt en (b := b) (o := 2) (n := 4) (w := 32) rfl (m := 3) (by omega)
  have hvel := flatMap_fieldAt en (b := b) (o := 14) (n := 4) (w := 32) rfl (m := 3) (by omega)
  calc fbPayload en (readFb en b)
      = memRead b 0 1 ++ memRead b 1 1 ++ memRead b 2 12 ++ memRead b 14 12 := by
        rw [← hcontrol, ← hio, ← hpos, ← hvel]; rfl
    _ = memRead b 0 26 := by
        rw [← memRead_add b 0 1 1, ← memRead_add b 0 2 12, ← memRead_add b 0 14 12]
    _ = b.take 26 := rfl

theorem encodeFb_readFb {b : List Byte} (h : b.length = 26) : encodeFb (readFb Config.endian b) = b := by
  rw [encodeFb, encodeFbIn_eq, fbPayload_readFb _ h.ge, List.take_of_length_le h.le]

/-- A datagram that verifies is the encoding of the frame read from it. -/
theorem encodeCmd_readCmd {b : List Byte} (h : verifyCmd b = true) : encodeCmd (readCmd Config.endian b) = b := by
  obtain ⟨hl, hlast⟩ := (verifyCmd_iff_getElem? b).1 h
  rw [List.getElem?_eq_getElem (by omega), Option.some_inj] at hlast
  rw [encodeCmd, encodeCmdIn_eq, cmdPayload_readCmd _ (by omega), ← hlast, take_concat_of_length hl]

theorem decodeCmd_of_length {b : List Byte} (h : b.length = 39) : decodeCmd b = .ok (readCmd Config.endian b) :=
  if_pos (.inr h)

/-! ## The statements -/

/-- Settles O2: reading gives back what was written, and writing gives back what was read; for a command datagram
the checksum byte is the one VERIFY_CMD asks for. -/
theorem frameCodecRoundTrips : Obligations.FrameCodecRoundTrips := by
  refine ⟨fun c => ?readCommand, decodeFb_encodeFb, fun b hl => ?writeFeedback, fun b hl hv => ?writeCommand⟩
  case readCommand => rw [decodeCmd_of_length (encodeCmd_length c), readCmd_encodeCmd]
  case writeFeedback => exact ⟨_, (decodeFb_eq_ok_iff b _).2 ⟨hl, rfl⟩, encodeFb_readFb hl⟩
  case writeCommand => exact ⟨_, decodeCmd_of_length hl, encodeCmd_readCmd hv⟩

/-- Settles O3: the fold of the payload is the checksum itself, and an encoded frame ends with it. -/
theorem checksumFoldsToZero : Obligations.ChecksumFoldsToZero :=
  ⟨fun _ _ => BitVec.xor_self, verifyCmd_encodeCmd⟩

/-- Settles O4: ENCODE_CMD has a left inverse, and so has DECODE_FB on 26 bytes. -/
theorem codecInjective : Obligations.CodecInjective := by
  refine ⟨fun c d h => ?_, fun a b ha hb h => ?_⟩
  · rw [← readCmd_encodeCmd c, h, readCmd_encodeCmd]
  · have hread := ((decodeFb_eq_ok_iff a _).1 (h.trans ((decodeFb_eq_ok_iff b _).2 ⟨hb, rfl⟩))).2
    rw [← encodeFb_readFb ha, hread, encodeFb_readFb hb]

/-- Settles O7: the fold of all 39 bytes is zero exactly if the last is the fold of the others. -/
theorem verifyAcceptsExactly : Obligations.VerifyAcceptsExactly := verifyCmd_iff_getElem?

/-- Settles O8: the fold does not depend on the order of the bytes, and both byte orders write the same bytes. -/
theorem checksumIgnoresByteOrder : Obligations.ChecksumIgnoresByteOrder := fun c => by
  rw [encodeCmdIn_getElem?_checksum, encodeCmdIn_getElem?_checksum, checksum, checksum,
    xorFold_perm _ (cmdPayload_perm .big .little c)]

/-- Settles O9: the fold changes by `d`; where it was zero it is `d`, which is not zero. -/
theorem singleByteErrorDetected : Obligations.SingleByteErrorDetected := by
  refine ⟨fun p k d => xorFold_set _ d k.isLt, fun b k d _ hv hd => ?_⟩
  obtain ⟨-, hfold⟩ := (verifyCmd_iff b).1 hv
  have hset := xorFold_set Config.checksumSeed d k.isLt
  simp only [hfold, BitVec.ofNat_eq_ofNat, BitVec.zero_xor] at hset
  rw [← Bool.not_eq_true, verifyCmd_iff]
  exact fun ⟨_, hzero⟩ => hd (hset.symm.trans hzero)

end Sys2Proof
end

section
/-!
PROOFS. The operand conversions (41_cycle_engine.md, R107 to R111, R118): truncation to an integer, the duty, the
velocity as binary32, and the quotients of the feedback outputs.
-/

namespace Sys2Proof.Machine

/-! ## Truncation (R107) -/

/-- The truncated magnitude is the integer part of its value. -/
theorem truncMag_eq_floor (m : Nat) (e : Int) : truncMag m e = ⌊(m * 2 ^ e : ℚ)⌋₊ := by
  have hval : (m * 2 ^ e : ℚ) = (m * pow2 e : Nat) / (pow2 (-e) : Nat) := by
    rw [zpow_two_eq, Nat.cast_mul, mul_div_assoc]
  rw [hval, Nat.floor_div_eq_div, truncMag]

theorem cvtI32_toInt_of_range (free : BitVec 32) {neg : Bool} {m : Nat} {e : Int} (hlo : -(2 ^ 31) ≤ truncFin neg m e)
    (hhi : truncFin neg m e ≤ 2 ^ 31 - 1) : (cvtI32 free (.fin neg m e)).toInt = truncFin neg m e := by
  rw [cvtI32, if_pos ⟨hlo, hhi⟩]
  exact BitVec.toInt_ofInt_eq_self (by decide) hlo (by omega)

theorem cvtI32_of_not_range (free : BitVec 32) {neg : Bool} {m : Nat} {e : Int}
    (h : truncFin neg m e < -(2 ^ 31) ∨ 2 ^ 31 - 1 < truncFin neg m e) : cvtI32 free (.fin neg m e) = free :=
  if_neg (by omega)

/-- Settles O13: `truncMag` is a floor, and the bounds of an i32 are the two sides of `cvtI32`. -/
theorem cvtI32Truncates : Obligations.CvtI32Truncates := by
  refine ⟨fun m e => ?_, fun m e => ⟨rfl, rfl⟩, fun free => ⟨rfl, fun _ => rfl,
    fun _ _ _ => cvtI32_toInt_of_range free, fun _ _ _ => cvtI32_of_not_range free⟩⟩
  rw [truncMag_eq_floor]
  exact ⟨Nat.floor_le (by positivity), Nat.lt_floor_add_one _⟩

/-! ## The duty (R109) -/

theorem natLeMag_iff (n m : Nat) (e : Int) : natLeMag n m e = true ↔ n ≤ truncMag m e := by
  rw [natLeMag, decide_eq_true_eq, truncMag, Nat.le_div_iff_mul_le (pow2_pos _)]

theorem le_truncMag_of_natLtMag {n m : Nat} {e : Int} (h : natLtMag n m e = true) : n ≤ truncMag m e :=
  (natLeMag_iff n m e).1 (decide_eq_true (of_decide_eq_true h).le)

theorem truncMag_le_of_not_natLtMag {n m : Nat} {e : Int} (h : ¬ natLtMag n m e = true) : truncMag m e ≤ n := by
  rw [natLtMag, decide_eq_true_eq, not_lt, mul_comm n] at h
  exact Nat.div_le_of_le_mul h

/-- A product that is not negative is truncated and clamped above. -/
theorem narrowPwm_of_nonneg (free : BitVec 16) (m : Nat) (e : Int) :
    (narrowPwm free (.fin false m e)).toNat = min 1023 (truncMag m e) := by
  rw [narrowPwm, Config.pwmMax]
  split
  · rename_i hgt
    rw [min_eq_left (le_truncMag_of_natLtMag hgt)]
    rfl
  · rename_i hle
    have := truncMag_le_of_not_natLtMag hle
    rw [min_eq_right this, BitVec.toNat_ofNat, Nat.mod_eq_of_lt (by omega)]

theorem narrowPwm_of_le_neg_one (free : BitVec 16) {m : Nat} {e : Int} (h : 1 ≤ truncMag m e) :
    narrowPwm free (.fin true m e) = free := if_pos ((natLeMag_iff 1 m e).2 h)

theorem narrowPwm_of_gt_neg_one (free : BitVec 16) {m : Nat} {e : Int} (h : truncMag m e = 0) :
    narrowPwm free (.fin true m e) = 0 := by
  have hlt : ¬ natLeMag 1 m e = true := by rw [natLeMag_iff]; omega
  rw [narrowPwm, if_neg hlt, h]
  rfl

/-- Duty 1.5 is scaled to 1534.5 and clamped (W2). -/
theorem cvtPwm_one_and_a_half (free : BitVec 16) : cvtPwm free 0x3FF8000000000000#64 = 1023 := by
  have hproduct : mulF64 (Datum.ofBits64 0x3FF8000000000000#64) (.ofNat Config.pwmMax) =
      .fin false 0x17FA0000000000 (-42) := by decide +kernel
  have hclamped : natLtMag Config.pwmMax 0x17FA0000000000 (-42) = true := by decide
  rw [cvtPwm, hproduct, narrowPwm, if_pos hclamped]
  rfl

theorem cvtPwm_zero (free : BitVec 16) : cvtPwm free 0x0000000000000000#64 = 0 := by
  have hproduct := mulF64_zero false false (-1074) 0 (.inl rfl : 0 = 0 ∨ Config.pwmMax = 0)
  have hzero : Datum.ofBits64 0x0000000000000000#64 = .fin false 0 (-1074) := ofBits64_zero false
  apply BitVec.eq_of_toNat_eq
  rw [cvtPwm, hzero, Datum.ofNat, hproduct]
  exact (narrowPwm_of_nonneg free 0 _).trans (by simp [truncMag])

/-- Settles O14: the three ranges of a finite product, and W2's two duties by their products. -/
theorem cvtPwmClampsAbove : Obligations.CvtPwmClampsAbove := fun free =>
  ⟨fun _ => rfl, rfl, rfl, rfl, narrowPwm_of_nonneg free, fun _ _ => narrowPwm_of_le_neg_one free,
    fun _ _ => narrowPwm_of_gt_neg_one free, cvtPwm_one_and_a_half free, cvtPwm_zero free⟩

/-- Settles O19: narrowing keeps the low bits. -/
theorem integerInputsAreCopied : Obligations.IntegerInputsAreCopied :=
  ⟨fun v => v.toNat_setWidth 32, fun v => v.toNat_setWidth 16⟩

/-! ## binary32 patterns (R108) -/

theorem mag32_le_infMag32 (m : Nat) (e : Int) : mag32 m e ≤ infMag32 := by
  unfold mag32 magBits
  split
  · exact Nat.zero_le _
  · exact min_le_right ..

theorem pack32_toNat (neg : Bool) {p : Nat} (hp : p < 2 ^ 31) :
    (pack32 neg p).toNat = p + if neg then 2 ^ 31 else 0 := by
  rw [pack32, BitVec.toNat_ofNat, Nat.mod_eq_of_lt]
  split <;> omega

theorem sign32_eq (b : F32) : b.getLsbD 31 = decide (2 ^ 31 ≤ b.toNat) :=
  (BitVec.msb_eq_getLsbD_last b).symm.trans (BitVec.msb_eq_decide b)

theorem pack32_sign (neg : Bool) {p : Nat} (hp : p < 2 ^ 31) : (pack32 neg p).getLsbD 31 = neg := by
  rw [sign32_eq, pack32_toNat neg hp]
  cases neg
  · simpa using hp
  · simp

theorem pack32_magnitude (neg : Bool) {p : Nat} (hp : p < 2 ^ 31) : (pack32 neg p).toNat % 2 ^ 31 = p := by
  rw [pack32_toNat neg hp]
  split <;> omega

theorem pack32_sign_magnitude (b : F32) : pack32 (b.getLsbD 31) (b.toNat % 2 ^ 31) = b := by
  have hb := b.isLt
  apply BitVec.eq_of_toNat_eq
  rw [pack32_toNat _ (Nat.mod_lt _ (by decide)), sign32_eq]
  simp only [decide_eq_true_eq]
  split <;> omega

/-- Packing the rounded magnitude gives the binary32 value of that sign. -/
theorem pack32_isF32 (neg : Bool) {m : Nat} (e : Int) (hm : 0 < m) :
    IsF32 neg (m * 2 ^ e) (pack32 neg (mag32 m e)) := by
  have hlt : mag32 m e < 2 ^ 31 := (mag32_le_infMag32 m e).trans_lt (by decide)
  refine ⟨pack32_sign neg hlt, ?_⟩
  rw [pack32_magnitude neg hlt]
  exact mag32_isRounded e hm

/-- A free word selects a NaN pattern (I2). -/
theorem ofBits32_nanBits32 (free : BitVec 32) : Datum.ofBits32 (nanBits32 free) = .nan := by
  refine (ofBits32_spec _).2.2 ?_
  rw [nanBits32, pack32_magnitude _ (by unfold infMag32; omega), infMag32]
  omega

/-- A binary32 pattern is a NaN only above the infinity pattern. -/
theorem infMag32_lt_of_nan {p : F32} (h : Datum.ofBits32 p = .nan) : infMag32 < p.toNat % 2 ^ 31 := by
  obtain ⟨hfin, hinf, -⟩ := ofBits32_spec p
  rcases lt_trichotomy (p.toNat % 2 ^ 31) infMag32 with hlt | heq | hgt
  · obtain ⟨m, e, hd, -⟩ := hfin hlt
    rw [h] at hd
    cases hd
  · rw [hinf heq] at h
    cases h
  · exact hgt

/-- A NaN pattern is the one that it selects itself (I2). -/
theorem nanBits32_of_nan {p : F32} (h : Datum.ofBits32 p = .nan) : nanBits32 p = p := by
  have hgt := infMag32_lt_of_nan h
  have hmag : infMag32 + max 1 (p.toNat % 2 ^ 23) = p.toNat % 2 ^ 31 := by
    unfold infMag32 at *
    omega
  rw [nanBits32, hmag, pack32_sign_magnitude]

/-- Settles O15: finite values by `pack32_isF32`, infinities and zeros by their patterns, and a NaN pattern is drawn by
itself. -/
theorem cvtVelSpecialValues : Obligations.CvtVelSpecialValues := by
  refine ⟨fun _ neg m e => pack32_isF32 neg e, fun _ => ⟨rfl, rfl⟩, fun _ e => ?zeros, ofBits32_nanBits32,
    fun p h => ⟨p, nanBits32_of_nan h⟩⟩
  case zeros =>
    rw [cvtVel, cvtVel, f32rne, f32rne, mag32_zero]
    exact ⟨rfl, rfl⟩

/-! ## The feedback outputs (R118) -/

/-- A free word selects a NaN pattern (I7). -/
theorem ofBits64_nanBits64 (free : BitVec 64) : Datum.ofBits64 (nanBits64 free) = .nan := by
  refine (ofBits64_spec _).2.2 ?_
  rw [nanBits64, pack64_magnitude _ (by unfold infMag64; omega), infMag64]
  omega

/-- A rounded value is no NaN, so it is packed back from the datum it is read as. -/
theorem bits64_of_isF64 (free : BitVec 64) {neg : Bool} {x : ℚ} {b : F64} (h : IsF64 neg x b) :
    bits64 free (Datum.ofBits64 b) = b := by
  refine bits64_ofBits64 free b fun hnan => ?_
  obtain ⟨hfin, hinf, -⟩ := ofBits64_spec b
  rcases h.2.le_infMag.lt_or_eq with hlt | heq
  · obtain ⟨m, e, hd, -⟩ := hfin hlt
    rw [hnan] at hd
    cases hd
  · rw [hinf heq] at hnan
    cases hnan

/-- The pattern of a quotient of finite values that are not 0 is the exact quotient, rounded (R13). -/
theorem bits64_divF64_isF64 (free : BitVec 64) (s t : Bool) {m n : Nat} (e f : Int) (hm : 0 < m) (hn : 0 < n) :
    IsF64 (s ^^ t) (m * 2 ^ e / (n * 2 ^ f)) (bits64 free (divF64 (.fin s m e) (.fin t n f))) := by
  obtain ⟨b, hb, hround⟩ := divF64_isF64 s t e f hm hn
  rwa [hb, bits64_of_isF64 free hround]

theorem posFeedback_isF64 (free : BitVec 64) {pos : I32} {scale : F64} {t : Bool} {n : Nat} {f : Int}
    (hscale : Datum.ofBits64 scale = .fin t n f) (hn : 0 < n) (hpos : pos ≠ 0) :
    IsF64 (decide (pos.toInt < 0) ^^ t) (|(pos.toInt : ℚ)| / (n * 2 ^ f)) (posFeedback free pos scale) := by
  have hm : 0 < pos.toInt.natAbs := Int.natAbs_pos.2 fun h => hpos (BitVec.eq_of_toInt_eq h)
  have h := bits64_divF64_isF64 free (decide (pos.toInt < 0)) t 0 f hm hn
  rw [zpow_zero, mul_one, Nat.cast_natAbs, Int.cast_abs] at h
  rwa [posFeedback, hscale]

theorem velFeedback_isF64 (free : BitVec 64) {vel : F32} {scale : F64} {s t : Bool} {m n : Nat} {e f : Int}
    (hscale : Datum.ofBits64 scale = .fin t n f) (hn : 0 < n) (hvel : Datum.ofBits32 vel = .fin s m e) (hm : 0 < m) :
    IsF64 (s ^^ t) (m * 2 ^ e / (n * 2 ^ f)) (velFeedback free vel scale) := by
  rw [velFeedback, hvel, hscale]
  exact bits64_divF64_isF64 free s t e f hm hn

/-- 2000 steps at 1000.0 steps per unit are 2.0 units (W3). -/
theorem posFeedback_2000 (free : BitVec 64) : posFeedback free 2000 0x408F400000000000#64 = 0x4000000000000000#64 := by
  have hquotient : divF64 (Datum.ofI32 2000) (Datum.ofBits64 0x408F400000000000#64) = .fin false (2 ^ 52) (-51) := by
    decide +kernel
  have hmag : mag64 (2 ^ 52) 1 (-51) = 0x4000000000000000 := by decide +kernel
  rw [posFeedback, hquotient, bits64, hmag]
  rfl

/-- By a zero scale a position is an infinity, or a NaN if it is 0. -/
theorem posFeedback_zero_scale (free : BitVec 64) (pos : I32) (t : Bool) :
    posFeedback free pos (pack64 t 0) =
      if pos = 0 then nanBits64 free else pack64 (decide (pos.toInt < 0) ^^ t) infMag64 := by
  have hzero : pos.toInt.natAbs = 0 ↔ pos = 0 := by
    rw [Int.natAbs_eq_zero]
    exact BitVec.toInt_inj (y := 0)
  rw [posFeedback, ofBits64_zero, Datum.ofI32, divF64, if_pos rfl]
  simp only [hzero]
  split <;> rfl

theorem pack64_infMag64 (neg : Bool) :
    pack64 neg infMag64 = if neg then 0xFFF0000000000000#64 else 0x7FF0000000000000#64 := by
  cases neg <;> rfl

/-- Settles O18: both zero scales are `pack64` of a sign and 0. -/
theorem zeroScaleFeedback : Obligations.ZeroScaleFeedback := by
  intro free v scale hscale
  obtain ⟨t, rfl⟩ : ∃ t, scale = pack64 t 0 := by
    rcases hscale with rfl | rfl
    exacts [⟨false, rfl⟩, ⟨true, rfl⟩]
  rw [posFeedback_zero_scale, pack64_sign t (by decide), ← pack64_infMag64]
  exact ⟨fun h => if_neg h, fun h => if_pos h, ofBits64_nanBits64 free⟩

end Sys2Proof.Machine
end

section
/-!
PROOFS. The instructions of a cycle (41_cycle_engine.md): what the five command kinds write (R100 to R105) and what FB
does (R117 to R120).
-/

namespace Sys2Proof

@[simp] theorem Axes.get_all {α : Type} (v : α) (i : Fin 3) : (Axes.all v).get i = v := by
  fin_cases i <;> rfl

@[simp] theorem Channels.get_all {α : Type} (v : α) (j : Fin 6) : (Channels.all v).get j = v := by
  fin_cases j <;> rfl

end Sys2Proof

namespace Sys2Proof.Machine

/-! ## The frames, field by field -/

section Frames

variable (draw : Nat) (e : Bool) (x : HostInputs) (i : Fin 3) (j : Fin 6)

@[simp] theorem runFrame_pos : (runFrame draw e x).pos.get i =
    cvtI32 (Config.free32 draw i.val) (scaled (x.positionCommand.get i) (x.scale.get i)) := Axes.get_ofFn _ i

@[simp] theorem runFrame_vel : (runFrame draw e x).vel.get i =
    cvtVel (Config.free32 draw (3 + i.val)) (scaled (x.velocityCommand.get i) (x.scale.get i)) := Axes.get_ofFn _ i

@[simp] theorem runFrame_pwm : (runFrame draw e x).pwm.get j =
    cvtPwm (Config.free16 draw j.val) (x.duty.get j) := Channels.get_ofFn _ j

@[simp] theorem dirsetupFrame_pos : (dirsetupFrame e x).pos.get i = cvtDir (x.dirSetup.get i) := Axes.get_ofFn _ i

@[simp] theorem dirsetupFrame_vel : (dirsetupFrame e x).vel.get i = 0 := Axes.get_all 0 i

@[simp] theorem dirsetupFrame_pwm : (dirsetupFrame e x).pwm.get j = 0 := Channels.get_all 0 j

@[simp] theorem dirsetupFrame_io : (dirsetupFrame e x).io = 0 := rfl

@[simp] theorem accelFrame_pos : (accelFrame draw e x).pos.get i =
    cvtI32 (Config.free32 draw i.val) (scaled (x.accel.get i) (x.scale.get i)) := Axes.get_ofFn _ i

@[simp] theorem accelFrame_vel : (accelFrame draw e x).vel.get i = 0 := Axes.get_all 0 i

@[simp] theorem accelFrame_pwm : (accelFrame draw e x).pwm.get j = 0 := Channels.get_all 0 j

@[simp] theorem accelFrame_io : (accelFrame draw e x).io = 0 := rfl

@[simp] theorem pwmfreqFrame_pos : (pwmfreqFrame e x).pos.get i = 0 := Axes.get_all 0 i

@[simp] theorem pwmfreqFrame_vel : (pwmfreqFrame e x).vel.get i = 0 := Axes.get_all 0 i

@[simp] theorem pwmfreqFrame_pwm : (pwmfreqFrame e x).pwm.get j = cvtFreq (x.pwmFrequency.get j) :=
  Channels.get_ofFn _ j

@[simp] theorem pwmfreqFrame_io : (pwmfreqFrame e x).io = 0 := rfl

@[simp] theorem idleFrame_pos : (idleFrame e).pos.get i = 0 := Axes.get_all 0 i

@[simp] theorem idleFrame_vel : (idleFrame e).vel.get i = 0 := Axes.get_all 0 i

@[simp] theorem idleFrame_pwm : (idleFrame e).pwm.get j = 0 := Channels.get_all 0 j

@[simp] theorem idleFrame_io : (idleFrame e).io = 0 := rfl

end Frames

/-! ## The command kinds -/

/-- Settles O21: the fields of `runFrame`. -/
theorem cmdRunWritesMotion : Obligations.CmdRunWritesMotion := fun e s =>
  ⟨_, exec_kindInstr s .run e, rfl, fun i => ⟨runFrame_vel s.draws e s.inp i, runFrame_pos s.draws e s.inp i⟩, rfl,
    runFrame_pwm s.draws e s.inp⟩

/-- Settles O22: the fields of `dirsetupFrame`. -/
theorem cmdDirsetupWritesSetupTimes : Obligations.CmdDirsetupWritesSetupTimes := fun e s =>
  ⟨_, exec_kindInstr s .dirsetup e, rfl, dirsetupFrame_pos e s.inp, rfl, dirsetupFrame_pwm e s.inp,
    dirsetupFrame_vel e s.inp⟩

/-- Settles O23: the fields of `accelFrame`. -/
theorem cmdAccelWritesScaledLimits : Obligations.CmdAccelWritesScaledLimits := fun e s =>
  ⟨_, exec_kindInstr s .accel e, rfl, accelFrame_pos s.draws e s.inp, rfl, accelFrame_pwm s.draws e s.inp,
    accelFrame_vel s.draws e s.inp⟩

/-- Settles O24: the fields of `pwmfreqFrame`. -/
theorem cmdPwmfreqWritesFrequencies : Obligations.CmdPwmfreqWritesFrequencies := fun e s =>
  ⟨_, exec_kindInstr s .pwmfreq e, rfl, pwmfreqFrame_pwm e s.inp, rfl,
    fun i => ⟨pwmfreqFrame_pos e s.inp i, pwmfreqFrame_vel e s.inp i⟩⟩

/-- Settles O25: the fields of `idleFrame`. -/
theorem cmdIdleWritesEnableOnly : Obligations.CmdIdleWritesEnableOnly := fun e s =>
  ⟨_, exec_kindInstr s .idle e, rfl, rfl, idleFrame_pwm e, fun i => ⟨idleFrame_pos e i, idleFrame_vel e i⟩⟩

/-! ## FB -/

theorem exec_fb (f : FeedbackFrame) (s : State) : exec (.fb f) s = .next (s.acceptFb f) := rfl

theorem unpackIo_get (io : Byte) (k : Fin 8) : (unpackIo io).get k = io.getLsbD k.val := Octet.get_ofFn _ k

theorem hasFlag_iff (c flag : Byte) : hasFlag c flag = true ↔ c &&& flag ≠ 0 := bne_iff_ne

@[simp] theorem positionOutputs_get (draw : Nat) (f : FeedbackFrame) (scale : Axes Config.Real) (i : Fin 3) :
    (positionOutputs draw f scale).get i = posFeedback (Config.free64 draw i.val) (f.pos.get i) (scale.get i) :=
  Axes.get_ofFn _ i

@[simp] theorem velocityOutputs_get (draw : Nat) (f : FeedbackFrame) (scale : Axes Config.Real) (i : Fin 3) :
    (velocityOutputs draw f scale).get i = velFeedback (Config.free64 draw (3 + i.val)) (f.vel.get i) (scale.get i) :=
  Axes.get_ofFn _ i

/-- Settles O27: the fields of `acceptFb`. -/
theorem feedbackUpdatesState : Obligations.FeedbackUpdatesState := fun f s =>
  ⟨_, exec_fb f s, rfl, unpackIo_get f.io, hasFlag_iff _ _, rfl⟩

/-- Settles O29: `acceptFb` writes the fields named and no other. -/
theorem feedbackFrameCondition : Obligations.FeedbackFrameCondition := by
  intro f s t h
  rw [exec_fb] at h
  cases h
  rfl

/-- Settles O28: the outputs are `posFeedback` and `velFeedback` of the fields, whose quotients are rounded. -/
theorem feedbackScalesOutputs : Obligations.FeedbackScalesOutputs := by
  refine fun f s => ⟨_, exec_fb f s, fun i => ?_⟩
  simp only [State.acceptFb_positionFeedback, State.acceptFb_velocityFeedback, positionOutputs_get,
    velocityOutputs_get]
  refine ⟨rfl, rfl, fun v n x hscale hn => ⟨posFeedback_isF64 _ hscale hn, fun u m y hvel hm => ?_⟩,
    fun hpos hscale => ?_⟩
  · exact velFeedback_isF64 _ hscale hn hvel hm
  · rw [hpos, hscale, posFeedback_2000]

end Sys2Proof.Machine
end

section
/-!
PROOFS. The loss count (41_cycle_engine.md, R113 to R121): how a CYCLE ends by whether its round trip completes, and
the loss that the CYCLEs still to come will add.
-/

namespace Sys2Proof.Machine

/-! ## How a CYCLE ends -/

/-- A round trip completes where the Send is accepted and the Recv returns 26 bytes (R16). -/
theorem State.roundTripOk_iff (s : State) : s.roundTripOk = true ↔
    s.port.send = .ok ∧ s.port.recv = .deliver ∧ ∃ b q, s.queue = b :: q ∧ b.length = 26 := by
  unfold State.roundTripOk Machine.roundTripOk
  split
  · simp_all [Config.fbLen]
  · rename_i hne
    refine iff_of_false Bool.false_ne_true ?_
    rintro ⟨hs, hr, b, q, hq, -⟩
    exact hne b q hs hr hq

/-- A CYCLE that does not complete its round trip clears `ready`, keeps the count's increment and leaves what the last
accepted feedback wrote (R114, R116). -/
theorem execCycle_of_failure {s t : State} (h : execCycle s = .next t) (hf : s.roundTripOk = false) :
    t.ready = false ∧ t.lostPackets = s.lostPackets + 1 ∧ t.fbLatch = s.fbLatch ∧ t.din = s.din ∧
      t.positionFeedback = s.positionFeedback ∧ t.velocityFeedback = s.velocityFeedback := by
  rcases execCycle_cases s h with ⟨-, rfl⟩ | ⟨-, -, rfl⟩ | ⟨-, b, -, -, -, rfl⟩ | ⟨hs, b, f, hr, hq, hb, -⟩
  · simp
  · simp [State.awaiting]
  · simp [State.awaiting]
  · obtain ⟨q, hq⟩ := List.head?_eq_some_iff.1 hq
    have := s.roundTripOk_iff.2 ⟨hs, hr, b, q, hq, ((decodeFb_eq_ok_iff b f).1 hb).1⟩
    simp [hf] at this

/-- A CYCLE that completes its round trip accepts the frame of the oldest datagram (R115, R117). -/
theorem execCycle_of_success {s t : State} (h : execCycle s = .next t) (hok : s.roundTripOk = true) :
    ∃ b q f, s.queue = b :: q ∧ decodeFb b = .ok f ∧
      t = (({ s.built.awaiting with queue := q, rxbuf := b } : State).enter .update).acceptFb f := by
  obtain ⟨hs, hr, b, q, hq, hb⟩ := s.roundTripOk_iff.1 hok
  have hf : decodeFb b = .ok (readFb Config.endian b) := (decodeFb_eq_ok_iff b _).2 ⟨hb, rfl⟩
  have hrecv : s.built.awaiting.recvAnswer = .datagram b :=
    (recvAnswer_eq_datagram_iff _ b).2 ⟨hr, congrArg List.head? hq⟩
  have htake : s.built.awaiting.recvTake = { s.built.awaiting with queue := q } := by
    simp [State.recvTake, State.awaiting, hr, hq]
  obtain ⟨-, rfl⟩ := (execCycle_eq_next_iff s t).1 h
  refine ⟨b, q, _, hq, hf, ?_⟩
  rw [cycleBody_eq, exchange_of_sendOk s.built hs, receive_of_frame _ hrecv hf, htake]

/-- A CYCLE counts its datagram as lost until the reply is accepted (R113, R120). -/
theorem execCycle_lostPackets {s t : State} (h : execCycle s = .next t) :
    t.lostPackets = s.lostPackets + if s.roundTripOk then 0 else 1 := by
  cases hok : s.roundTripOk with
  | false => exact (execCycle_of_failure h hok).2.1
  | true =>
    obtain ⟨b, q, f, -, -, rfl⟩ := execCycle_of_success h hok
    simp [State.awaiting]

/-- A CYCLE takes from the queue what its one Recv takes, and nothing after a failed Send (R114, R115). -/
theorem execCycle_queue {s t : State} (h : execCycle s = .next t) :
    (s.port.send = .fail → t.queue = s.queue) ∧
      (s.port.send = .ok → t.queue = queueAfterRecv s.port.recv s.queue) := by
  rcases execCycle_cases s h with ⟨hs, rfl⟩ | ⟨hs, -, rfl⟩ | ⟨hs, b, -, -, -, rfl⟩ | ⟨hs, b, f, -, -, -, rfl⟩ <;>
    simp [hs, State.awaiting]

/-! ## The loss of many CYCLEs (R121) -/

/-- The loss count that the state will have when the CYCLEs still to come are done. -/
def State.expectedLoss (s : State) : BitVec 32 := s.lostPackets + BitVec.ofNat 32 (failedCycles s.queue s.calls)

/-- The queue of a CYCLE's invocation after it. -/
theorem execCycle_present_queue {s t : State} {c : Invocation} {rest : List Invocation}
    (h : execCycle (s.present c rest) = .next t) : t.queue = queueAfterCycle c s.queue := by
  obtain ⟨hfail, hok⟩ := execCycle_queue h
  unfold queueAfterCycle
  split
  · exact hok ‹_›
  · exact hfail ‹_›

/-- An open block invoked with CYCLE ends the step open and idle, the other invocations still to come, and what it adds
to the loss count it no longer expects. -/
theorem step_of_cycle_keeps_expectedLoss {s : State} {c : Invocation} {rest : List Invocation} (hp : s.phase = .idle)
    (ho : s.tstate = .opened) (hc : s.calls = c :: rest) (hop : c.op = 0b10#2) :
    ∃ t, step s = .next t ∧ t.phase = .idle ∧ t.tstate = .opened ∧ t.calls = rest ∧
      t.expectedLoss = s.expectedLoss := by
  have hcycle : execCycle (s.present c rest) = .next (s.present c rest).cycleBody := execCycle_of_opened _ ho
  obtain ⟨hopen, -, -, -, -, hcalls, -⟩ := cycleFrameCondition _ _ hcycle
  refine ⟨_, step_of_cycle hp ho hc hop, execCycle_phase hcycle, hopen.trans ho, hcalls, ?_⟩
  have hlost := execCycle_lostPackets hcycle
  have hround : (s.present c rest).roundTripOk = roundTripOk c.send c.recv (s.queue ++ c.arrivals) := rfl
  rw [State.expectedLoss, State.expectedLoss, hlost, execCycle_present_queue hcycle, hcalls, hc, failedCycles, hround,
    BitVec.ofNat_add, ← BitVec.add_assoc]
  split <;> rfl

/-- A run of CYCLEs from an open idle state ends with the loss count that was expected. -/
theorem run_cycles_lostPackets (cs : List Invocation) (s : State) (hp : s.phase = .idle) (ho : s.tstate = .opened)
    (hc : s.calls = cs) (hop : ∀ c ∈ cs, c.op = 0b10#2) :
    ∃ t, core.run cs.length s = .next t ∧ t.lostPackets = s.expectedLoss := by
  induction cs generalizing s with
  | nil => exact ⟨s, rfl, by simp [State.expectedLoss, hc, failedCycles]⟩
  | cons c cs ih =>
    obtain ⟨hopc, hops⟩ := List.forall_mem_cons.1 hop
    obtain ⟨u, hstep, hup, huo, huc, hu⟩ := step_of_cycle_keeps_expectedLoss hp ho hc hopc
    obtain ⟨t, hrun, hlost⟩ := ih u hup huo huc hops
    exact ⟨t, run_succ_of_step hstep hrun, hlost.trans hu⟩

/-- Settles O43: every CYCLE keeps the loss count that is expected at the end, by induction on the CYCLEs to come. -/
theorem lossOverManyCycles : Obligations.LossOverManyCycles := by
  refine ⟨fun cs s hp ho hc hop => ?_, fun s t h hf => (execCycle_of_failure h hf).1⟩
  obtain ⟨t, hrun, hlost⟩ := run_cycles_lostPackets cs s hp ho hc hop
  exact ⟨t, hrun, by rw [hlost, State.expectedLoss, hc]⟩

/-- Settles O42: the increment of `execCycle_lostPackets`, read as a number. -/
theorem lossPerCycle : Obligations.LossPerCycle := by
  intro s ho
  have h := execCycle_of_opened s ho
  refine ⟨_, h, ?_⟩
  rw [execCycle_lostPackets h, BitVec.toNat_add]
  split <;> rfl

end Sys2Proof.Machine
end

section
/-!
PROOFS. CYCLE (41_cycle_engine.md, R93 to R128): the frame it selects, how it ends, which inputs it reads, and that it
is its phases run one after another.
-/

namespace Sys2Proof.Machine

/-! ## The frame a CYCLE selects (R97 to R99) -/

/-- Each stage's kind is selected by the first acknowledgment missing. -/
theorem frameKind_not_ready (c : Byte) :
    (frameKind false c = .dirsetup ↔ c &&& Config.flagDirsetup = 0) ∧
    (frameKind false c = .accel ↔ c &&& Config.flagDirsetup ≠ 0 ∧ c &&& Config.flagAccel = 0) ∧
    (frameKind false c = .pwmfreq ↔
      c &&& Config.flagDirsetup ≠ 0 ∧ c &&& Config.flagAccel ≠ 0 ∧ c &&& Config.flagPwmfreq = 0) ∧
    (frameKind false c = .idle ↔
      c &&& Config.flagDirsetup ≠ 0 ∧ c &&& Config.flagAccel ≠ 0 ∧ c &&& Config.flagPwmfreq ≠ 0) := by
  unfold frameKind stageOf hasFlag
  rw [if_neg Bool.false_ne_true]
  split_ifs <;> simp_all [stageKind]

/-- CMD_RUN is selected by `ready` alone. -/
theorem frameKind_eq_run_iff (r : Bool) (c : Byte) : frameKind r c = .run ↔ r = true := by
  cases r with
  | true => exact iff_of_true rfl rfl
  | false =>
    refine iff_of_false (fun h => ?_) Bool.false_ne_true
    rw [frameKind, if_neg Bool.false_ne_true] at h
    cases hg : stageOf c <;> simp [hg, stageKind] at h

theorem execCycle_cmdLatch_of_kind {s t : State} (h : execCycle s = .next t) {k : FrameKind}
    (hk : frameKind s.ready s.fbLatch.control = k) :
    t.cmdLatch = kindFrame k s.draws s.port.inputs.enable s.port.inputs := by
  rw [(execCycle_frame h).1, State.cycleFrame, hk]

theorem execCycle_control {s t : State} (h : execCycle s = .next t) :
    t.cmdLatch.control = kindBits (frameKind s.ready s.fbLatch.control) ||| enableBit s.port.inputs.enable := by
  rw [execCycle_cmdLatch_of_kind h rfl, kindFrame_control]

/-- The kind bits of the control byte that a CYCLE sends are those of the kind it selects. -/
theorem execCycle_kindBits_iff {s t : State} (h : execCycle s = .next t) (k : FrameKind) :
    t.cmdLatch.control &&& 0x7F = kindBits k ↔ frameKind s.ready s.fbLatch.control = k := by
  rw [← kindOf_eq_some_iff, execCycle_control h, Laws.EncodesWellFormed.kindOf_kindBits, Option.some_inj]

/-- Settles O37: the kind by `frameKind_not_ready`, its frame by `execCycle_cmdLatch_of_kind`. -/
theorem cycleSelectsFrame : Obligations.CycleSelectsFrame := by
  intro s ho
  have h := execCycle_of_opened s ho
  obtain ⟨hdirsetup, haccel, hpwmfreq, hidle⟩ := frameKind_not_ready s.fbLatch.control
  refine ⟨_, h, fun hr => ?_, fun hr hd => ?_, fun hr hd ha => ?_, fun hr hd ha hp => ?_, fun hr hd ha hp => ?_⟩
  · exact execCycle_cmdLatch_of_kind h (k := .run) ((frameKind_eq_run_iff _ _).2 hr)
  · exact execCycle_cmdLatch_of_kind h (k := .dirsetup) (by rw [hr, hdirsetup]; exact hd)
  · exact execCycle_cmdLatch_of_kind h (k := .accel) (by rw [hr, haccel]; exact ⟨hd, ha⟩)
  · exact execCycle_cmdLatch_of_kind h (k := .pwmfreq) (by rw [hr, hpwmfreq]; exact ⟨hd, ha, hp⟩)
  · exact execCycle_cmdLatch_of_kind h (k := .idle) (by rw [hr, hidle]; exact ⟨hd, ha, hp⟩)

/-- Settles O45: the kind that was sent is the one selected, which says what is acknowledged. -/
theorem handshakeOrder : Obligations.HandshakeOrder := by
  intro s t hr h
  obtain ⟨-, haccel, hpwmfreq, hidle⟩ := frameKind_not_ready s.fbLatch.control
  have hkind := execCycle_kindBits_iff h
  rw [hr] at hkind
  refine ⟨fun hc => ?_, fun hc => ?_, fun hc => ?_, fun hc => ?_⟩
  · exact (haccel.1 ((hkind .accel).1 hc)).1
  · obtain ⟨hd, ha, -⟩ := hpwmfreq.1 ((hkind .pwmfreq).1 hc)
    exact ⟨hd, ha⟩
  · exact hidle.1 ((hkind .idle).1 hc)
  · exact Bool.false_ne_true ((frameKind_eq_run_iff _ _).1 ((hkind .run).1 hc))

/-- No kind has the ENABLE bit among its own (R67, R97). -/
theorem kindBits_or_enableBit_and_flagEnable (k : FrameKind) (e : Bool) :
    (kindBits k ||| enableBit e) &&& Config.flagEnable = enableBit e := by
  cases k <;> cases e <;> decide

/-- Settles O48: the control byte is the kind's bits and the ENABLE bit, and stands first in the datagram. -/
theorem enableBitIsFresh : Obligations.EnableBitIsFresh := by
  intro s t h
  obtain ⟨hcmd, htx⟩ := execCycle_frame h
  refine ⟨?enable, (execCycle_kindBits_iff h _).2 rfl, ?first⟩
  case enable =>
    rw [execCycle_control h, kindBits_or_enableBit_and_flagEnable]
    rfl
  case first => rw [htx, ← hcmd, ← List.head?_eq_getElem?, encodeCmd_head?]

/-- Settles O46: the payload of each kind but CMD_RUN, which is sent with `ready` 1 only. -/
theorem payloadIsMultiplexed : Obligations.PayloadIsMultiplexed := by
  intro s t h
  refine ⟨fun hr => ?_, fun hr => execCycle_cmdLatch_of_kind h (k := .run) ((frameKind_eq_run_iff _ _).2 hr)⟩
  rw [execCycle_cmdLatch_of_kind h rfl]
  cases hk : frameKind s.ready s.fbLatch.control with
  | run => simp [frameKind_eq_run_iff, hr] at hk
  | dirsetup | accel | pwmfreq | idle => simp [kindFrame]

/-! ## How a CYCLE ends -/

/-- Settles O36: CYCLE asks for an open transport first. -/
theorem cycleWhileClosedFaults : Obligations.CycleWhileClosedFaults := fun s hc =>
  show execCycle s = _ by rw [execCycle, hc]

/-- Settles O38: the state of `execCycle_of_success`, field by field. -/
theorem cycleCompletesRoundTrip : Obligations.CycleCompletesRoundTrip := by
  intro s b q f ho hs hr hq hf
  have hok : s.roundTripOk = true := s.roundTripOk_iff.2 ⟨hs, hr, b, q, hq, ((decodeFb_eq_ok_iff b f).1 hf).1⟩
  obtain ⟨b', q', f', hq', hf', ht⟩ := execCycle_of_success (execCycle_of_opened s ho) hok
  obtain ⟨rfl, rfl⟩ := List.cons.inj (hq.symm.trans hq')
  obtain rfl : f = f' := by simpa [hf] using hf'
  refine ⟨_, (execCycle_of_opened s ho).trans (congrArg _ ht), rfl, rfl, ?lost, unpackIo_get f.io,
    ⟨s.draws + 1, fun i => ⟨positionOutputs_get _ f _ i, velocityOutputs_get _ f _ i⟩⟩, rfl, ?txbuf, rfl, rfl, rfl⟩
  case lost => simp [State.awaiting]
  case txbuf => simp [State.awaiting]

theorem roundTripOk_eq_false_of_send {s : State} (hs : s.port.send = .fail) : s.roundTripOk = false := by
  simp [← Bool.not_eq_true, s.roundTripOk_iff, hs]

theorem roundTripOk_eq_false_of_recv {s : State}
    (hr : s.port.recv = .timeout ∨ s.queue = [] ∨ ∃ b q, s.queue = b :: q ∧ b.length ≠ 26) :
    s.roundTripOk = false := by
  rw [← Bool.not_eq_true, s.roundTripOk_iff]
  rintro ⟨-, hd, b, q, hq, hb⟩
  rcases hr with hr | hr | ⟨b', q', hq', hb'⟩
  · simp [hd] at hr
  · simp [hq] at hr
  · obtain ⟨rfl, rfl⟩ := List.cons.inj (hq.symm.trans hq')
    exact hb' hb

/-- Settles O39: what a failed cycle leaves, and without a Recv also the queue and RXBUF. -/
theorem sendFailureEndsCycle : Obligations.SendFailureEndsCycle := by
  intro s ho hs
  have h := execCycle_of_opened s ho
  obtain ⟨hready, hlost, hfb, hdin, hpos, hvel⟩ := execCycle_of_failure h (roundTripOk_eq_false_of_send hs)
  have hrx : s.cycleBody.rxbuf = s.rxbuf := by rw [cycleBody_eq, exchange_of_sendFail s.built hs]; rfl
  exact ⟨_, h, hready, hlost, (execCycle_queue h).1 hs, hrx, hfb, hdin, hpos, hvel, execCycle_phase h⟩

/-- Settles O40: a timeout, an empty queue and a wrong length are failed cycles. -/
theorem receiveFailureEndsCycle : Obligations.ReceiveFailureEndsCycle := by
  intro s ho _ hr
  have h := execCycle_of_opened s ho
  obtain ⟨hready, hlost, hfb, hdin, hpos, hvel⟩ := execCycle_of_failure h (roundTripOk_eq_false_of_recv hr)
  exact ⟨_, h, hready, hlost, hfb, hdin, hpos, hvel, execCycle_phase h⟩

/-- A CYCLE offers the frame it built, once (R112). -/
theorem execCycle_sent {s t : State} (h : execCycle s = .next t) :
    t.sent = s.sent ++ [⟨s.cfgEndpoint, encodeCmd t.cmdLatch, s.port.send⟩] := by
  rw [(execCycle_frame h).1]
  rcases execCycle_cases s h with ⟨-, rfl⟩ | ⟨-, -, rfl⟩ | ⟨-, b, -, -, -, rfl⟩ | ⟨-, b, f, -, -, -, rfl⟩ <;>
    simp [State.awaiting]

/-- Settles O44: one offer, one Recv at most, and `fbLatch` from the datagram it took. -/
theorem exchangeIsOneSendOneReceive : Obligations.ExchangeIsOneSendOneReceive := by
  intro s t h
  refine ⟨execCycle_sent h, ?queue, ?fbLatch⟩
  case queue =>
    obtain ⟨hfail, hok⟩ := execCycle_queue h
    cases hs : s.port.send with
    | fail => exact .inl (hfail hs)
    | ok => rw [hok hs]; exact queueAfterRecv_cases _ _
  case fbLatch =>
    cases hok : s.roundTripOk with
    | false =>
      obtain ⟨-, -, hfb, -⟩ := execCycle_of_failure h hok
      exact .inl hfb
    | true =>
      obtain ⟨b, q, f, hq, hf, rfl⟩ := execCycle_of_success h hok
      exact .inr ⟨b, hq, hf⟩

/-! ## Motion needs `ready` (R119, R156) -/

/-- `ready` after a CYCLE comes from the frame it accepted. -/
theorem execCycle_ready {s t : State} (h : execCycle s = .next t) (ht : t.ready = true) :
    ∃ b f, s.queue.head? = some b ∧ decodeFb b = .ok f ∧ f.control &&& Config.flagReady ≠ 0 ∧ t.fbLatch = f := by
  cases hok : s.roundTripOk with
  | false => simp [(execCycle_of_failure h hok).1] at ht
  | true =>
    obtain ⟨b, q, f, hq, hf, rfl⟩ := execCycle_of_success h hok
    exact ⟨b, f, by rw [hq, List.head?_cons], hf, (hasFlag_iff _ _).1 ht, rfl⟩

/-- The kind of the datagram a CYCLE offers is the one it selects. -/
theorem execCycle_offer_kind {s t : State} (h : execCycle s = .next t) {o : Offer} (ho : t.sent = s.sent ++ [o]) :
    o.kind = some (frameKind s.ready s.fbLatch.control) := by
  obtain rfl : _ = o := by simpa [execCycle_sent h] using ho
  rw [Offer.kind, List.headD_eq_head?_getD, encodeCmd_head?, Option.getD_some, execCycle_control h,
    Laws.EncodesWellFormed.kindOf_kindBits]

/-- Settles O59: of the operations that end open, an INIT clears `ready` and sends nothing, and a CYCLE gets `ready`
from its frame and sends the kind it selects. -/
theorem motionNeedsReady : Obligations.MotionNeedsReady := by
  intro s t hp h ho
  rcases step_cases s h with ⟨-, -, rfl⟩ | ⟨c, rest, i, -, hc, hi, he⟩ | hr
  · exact ⟨fun hs ht => absurd (hs.symm.trans ht) nofun, by simp⟩
  · rcases decodeOp_cases hi with rfl | rfl | rfl
    · rcases execInit_cases he with ⟨hclosed, ⟨-, rfl⟩ | ⟨-, rfl⟩⟩
      · exact absurd (hclosed.symm.trans ho) nofun
      · simp
    · refine ⟨fun _ ht => ?_, fun o hs hk => ?_⟩
      · obtain ⟨b, f, hb, hf⟩ := execCycle_ready he ht
        exact ⟨c, rest, b, f, hc, hb, hf⟩
      · rw [execCycle_offer_kind he hs, Option.some_inj] at hk
        exact (frameKind_eq_run_iff _ _).1 hk
    · rcases execShutdown_cases he with ⟨hclosed, rfl⟩ | ⟨-, rfl⟩
      · exact absurd (hclosed.symm.trans ho) nofun
      · exact absurd ho nofun
  · simp [hp] at hr

/-! ## The motion inputs (R128) -/

/-- The inputs with the motion ones replaced. -/
def HostInputs.withMotion (x : HostInputs) (p v : Axes F64) (o : Channels Bool) (d : Channels F64) : HostInputs :=
  { x with positionCommand := p, velocityCommand := v, dout := o, duty := d }

/-- The state with the motion inputs replaced. -/
def State.withMotion (s : State) (p v : Axes F64) (o : Channels Bool) (d : Channels F64) : State :=
  { s with port := { s.port with inputs := s.port.inputs.withMotion p v o d } }

/-- The state with the inputs `x` driven and sampled. -/
def State.driven (s : State) (x : HostInputs) : State := { s with inp := x, port := { s.port with inputs := x } }

/-- No frame but CMD_RUN's reads the motion inputs (R102 to R105). -/
theorem kindFrame_withMotion {k : FrameKind} (hk : k ≠ .run) (draw : Nat) (e : Bool) (x : HostInputs)
    (p v : Axes F64) (o : Channels Bool) (d : Channels F64) :
    kindFrame k draw e (x.withMotion p v o d) = kindFrame k draw e x := by
  cases k with
  | run => exact absurd rfl hk
  | dirsetup | accel | pwmfreq | idle => rfl

theorem failCycle_driven (s : State) (x : HostInputs) (o : LastOutcome) :
    (s.driven x).failCycle o = (s.failCycle o).driven x := rfl

theorem transmit_driven (s : State) (x : HostInputs) : (s.driven x).transmit = s.transmit.driven x := by
  simp only [State.transmit, State.offer, State.driven]

theorem recvTake_driven (s : State) (x : HostInputs) : (s.driven x).recvTake = s.recvTake.driven x := by
  unfold State.recvTake State.driven
  dsimp only
  split <;> rfl

/-- Of the inputs, UPDATE reads `scale` (R118). -/
theorem acceptFb_driven (s : State) {x : HostInputs} (hx : x.scale = s.inp.scale) (f : FeedbackFrame) :
    (s.driven x).acceptFb f = (s.acceptFb f).driven x := by
  simp [State.acceptFb, State.driven, hx]

/-- A receive reads no other input than `scale`. -/
theorem receive_driven (s : State) {x : HostInputs} (hx : x.scale = s.inp.scale) :
    (s.driven x).receive = s.receive.driven x := by
  have hrecv : (s.driven x).recvAnswer = s.recvAnswer := recvAnswer_congr rfl rfl
  rcases receive_cases s with ⟨ha, hs⟩ | ⟨b, ha, hb, hs⟩ | ⟨b, f, ha, hf, hs⟩
  · rw [hs, receive_of_timeout _ (hrecv.trans ha), recvTake_driven]
    rfl
  · rw [hs, receive_of_mismatch _ (hrecv.trans ha) hb, recvTake_driven]
    rfl
  · rw [hs, receive_of_frame _ (hrecv.trans ha) hf, recvTake_driven, ← acceptFb_driven _ (by simpa using hx)]
    rfl

/-- An exchange reads no other input than `scale`. -/
theorem exchange_driven (s : State) {x : HostInputs} (hx : x.scale = s.inp.scale) :
    (s.driven x).exchange = s.exchange.driven x := by
  cases hs : s.port.send with
  | fail =>
    rw [exchange_of_sendFail s hs, exchange_of_sendFail (s.driven x) hs, transmit_driven, failCycle_driven]
  | ok =>
    have hawaiting : (s.driven x).awaiting = s.awaiting.driven x := congrArg (·.enter .recv) (transmit_driven s x)
    rw [exchange_of_sendOk s hs, exchange_of_sendOk (s.driven x) hs, hawaiting, receive_driven s.awaiting hx]

/-- With `ready` 0 the motion inputs do not change the frame built. -/
theorem built_withMotion {s : State} (hr : s.ready = false) (p v : Axes F64) (o : Channels Bool) (d : Channels F64) :
    (s.withMotion p v o d).built = s.built.driven (s.port.inputs.withMotion p v o d) := by
  have hk : frameKind s.ready s.fbLatch.control ≠ .run := by simp [frameKind_eq_run_iff, hr]
  have hframe : (s.withMotion p v o d).cycleFrame = s.cycleFrame :=
    kindFrame_withMotion hk s.draws s.port.inputs.enable s.port.inputs p v o d
  rw [State.built, hframe]
  rfl

/-- Settles O47: with `ready` 0 the frame built is the same, and the exchange reads only `scale`. -/
theorem motionInputsAreInvisibleUntilReady : Obligations.MotionInputsAreInvisibleUntilReady := by
  intro s t p v o d hr h
  obtain ⟨ho, rfl⟩ := (execCycle_eq_next_iff s t).1 h
  refine ⟨s.cycleBody.driven (s.port.inputs.withMotion p v o d),
    (execCycle_of_opened (s.withMotion p v o d) ho).trans ?_, rfl⟩
  have hexchange := exchange_driven s.built (x := s.port.inputs.withMotion p v o d) rfl
  rw [cycleBody_eq, cycleBody_eq, built_withMotion hr, hexchange]

/-! ## The phases one at a time (R31, R93) -/

theorem step_of_sample {s : State} (hp : s.phase = .sample) : step s = .next s.sampleInputs := by
  simp [step, fetch, hp]

theorem step_of_send {s : State} (hp : s.phase = .send) : step s = .next s.sendPhase := by
  simp [step, fetch, hp]

theorem step_of_recv {s : State} (hp : s.phase = .recv) : step s = .next s.recvPhase := by
  simp [step, fetch, hp]

/-- The step from UPDATE is the update, whatever RXBUF holds. -/
theorem step_of_updatePhase {s : State} (hp : s.phase = .update) : step s = .next s.updatePhase := by
  cases hf : decodeFb s.rxbuf with
  | ok f => rw [step_of_update hp hf, exec_fb, State.updatePhase, hf]
  | sizeMismatch => simp [step, fetch, hp, hf, State.updatePhase]

theorem step_of_sampled (s : State) : step s.sampleInputs = .next s.built :=
  (step_of_build rfl).trans (exec_kindInstr ..)

/-- From RECV a receive takes one step, or two if there is a frame to accept. -/
theorem run_receive {s : State} (hp : s.phase = .recv) : ∃ n, n ≤ 2 ∧ core.run n s = .next s.receive := by
  unfold State.receive
  dsimp only
  split
  · rename_i hu
    exact ⟨2, le_rfl, run_succ_of_step (step_of_recv hp) (run_succ_of_step (step_of_updatePhase hu) rfl)⟩
  · exact ⟨1, by decide, run_succ_of_step (step_of_recv hp) rfl⟩

/-- From SEND an exchange takes one step, and those of its receive if the Send was accepted. -/
theorem run_exchange {s : State} (hp : s.phase = .send) : ∃ n, n ≤ 3 ∧ core.run n s = .next s.exchange := by
  unfold State.exchange
  dsimp only
  split
  · rename_i hr
    obtain ⟨n, hn, hrun⟩ := run_receive hr
    exact ⟨n + 1, by omega, run_succ_of_step (step_of_send hp) hrun⟩
  · exact ⟨1, by decide, run_succ_of_step (step_of_send hp) rfl⟩

/-- Settles O50: SAMPLE and BUILD are one step each, and the exchange is at most three. -/
theorem cycleIsItsPhases : Obligations.CycleIsItsPhases := by
  intro s t h
  obtain ⟨-, rfl⟩ := (execCycle_eq_next_iff s t).1 h
  obtain ⟨n, hn, hrun⟩ := run_exchange (s := s.built) rfl
  have hsample : step { s with phase := .sample } = .next s.sampleInputs := step_of_sample rfl
  rw [cycleBody_eq]
  exact ⟨n + 2, by omega, run_succ_of_step hsample (run_succ_of_step (step_of_sampled s) hrun)⟩

end Sys2Proof.Machine
end

section
/-!
PROOFS. INIT and SHUTDOWN (42_lifecycle_ops.md, R130 to R135): how each ends by the transport's state, and what each
writes and leaves alone.
-/

namespace Sys2Proof

@[simp] theorem Octet.get_all {α : Type} (v : α) (k : Fin 8) : (Octet.all v).get k = v := by
  fin_cases k <;> rfl

end Sys2Proof

namespace Sys2Proof.Machine

/-! ## How an operation ends, by the transport's state -/

/-- R133. -/
theorem execInit_of_opened {s : State} (ho : s.tstate = .opened) : execInit s = .fault .initWhileOpen := by
  rw [execInit, ho]

/-- R131. -/
theorem execInit_of_acquireFail {s : State} (hc : s.tstate = .closed) (ha : s.port.acquire = .fail) :
    execInit s = .next { s with initAnswer := .initFailed } := by
  simp only [execInit, hc, ha]

/-- R130, R132. -/
theorem execInit_of_acquireOk {s : State} (hc : s.tstate = .closed) (ha : s.port.acquire = .ok) :
    execInit s = .next s.initialise.recvTake := by
  simp only [execInit, hc, ha]

/-- R134. -/
theorem execShutdown_of_opened {s : State} (ho : s.tstate = .opened) : execShutdown s = .next s.release := by
  rw [execShutdown, ho]

/-- R135. -/
theorem execShutdown_of_closed {s : State} (hc : s.tstate = .closed) : execShutdown s = .next s := by
  rw [execShutdown, hc]

/-! ## INIT -/

/-- Settles O30: `initialise` gives every element its value of R41, and the discard-read changes only the queue. -/
theorem initResetsEveryElement : Obligations.InitResetsEveryElement := by
  intro s hc ha
  refine ⟨_, execInit_of_acquireOk hc ha, ?_⟩
  simp [CommandFrame.zero, FeedbackFrame.zero, Axes.all, Channels.all]

/-- Settles O31: the one way INIT ends while closed when Acquire fails. -/
theorem initFailureWritesNothing : Obligations.InitFailureWritesNothing := fun _ => execInit_of_acquireFail

/-- Settles O32: INIT asks for a closed transport first. -/
theorem initWhileOpenFaults : Obligations.InitWhileOpenFaults := fun _ => execInit_of_opened

/-- Settles O33: a failed INIT writes only its answer; else `initialise` writes none of these, and the discard-read is
one Recv. -/
theorem initFrameCondition : Obligations.InitFrameCondition := by
  intro s t h
  rcases execInit_cases h with ⟨-, ⟨-, rfl⟩ | ⟨-, rfl⟩⟩
  · simp
  · simpa using queueAfterRecv_cases s.port.recv s.queue

/-! ## SHUTDOWN -/

/-- Settles O34: `release` closes the transport and writes neither the frame buffers, the wire, the host interface nor
the last answer of INIT. -/
theorem shutdownCloses : Obligations.ShutdownCloses := fun _ ho =>
  ⟨_, execShutdown_of_opened ho, rfl, rfl, rfl, rfl, rfl, rfl, rfl, rfl⟩

/-- Settles O35: the one way SHUTDOWN ends while closed. -/
theorem shutdownWhileClosedDoesNothing : Obligations.ShutdownWhileClosedDoesNothing := fun _ => execShutdown_of_closed

end Sys2Proof.Machine
end

section
/-!
PROOFS. Errors and idling (60_exceptions.md, R137 to R153): the whole state after each of the three errors of a CYCLE,
and the step with no invocation to come.
-/

namespace Sys2Proof.Machine

/-! ## The uniform policy (R138 to R142) -/

/-- The state after a CYCLE in `s` that ended with the error `o`, where RXBUF then holds `b` and the queue is `q`. -/
def State.afterError (s : State) (o : LastOutcome) (b : List Byte) (q : List (List Byte)) : State :=
  { s with
    ready := false
    lostPackets := s.lostPackets + 1
    cmdLatch := s.cycleFrame
    txbuf := encodeCmd s.cycleFrame
    lastOutcome := o
    rxbuf := b
    inp := s.port.inputs
    phase := .idle
    sent := s.sent ++ [⟨s.cfgEndpoint, encodeCmd s.cycleFrame, s.port.send⟩]
    queue := q
    draws := s.draws + 1 }

/-- A CYCLE whose round trip does not complete ends with one of the three errors, and only a size mismatch stores the
datagram taken (R138 to R140, R142). -/
theorem execCycle_eq_afterError {s t : State} (h : execCycle s = .next t) (hf : s.roundTripOk = false) :
    t = s.afterError .sendFail s.rxbuf s.queue ∨
    t = s.afterError .recvTimeout s.rxbuf (queueAfterRecv s.port.recv s.queue) ∨
    ∃ b q, s.queue = b :: q ∧ b.length ≠ 26 ∧ t = s.afterError .sizeMismatch b q := by
  rcases execCycle_cases s h with ⟨-, rfl⟩ | ⟨-, -, rfl⟩ | ⟨-, b, hr, hq, hb, rfl⟩ | ⟨hs, b, f, hr, hq, hb, -⟩
  · exact .inl (by simp [State.failCycle, State.afterError])
  · exact .inr (.inl (by simp [State.failCycle, State.afterError, State.awaiting]))
  · obtain ⟨q, hq⟩ := List.head?_eq_some_iff.1 hq
    refine .inr (.inr ⟨b, q, hq, hb, ?_⟩)
    simp [State.failCycle, State.afterError, State.awaiting, queueAfterRecv, hr, hq]
  · obtain ⟨q, hq⟩ := List.head?_eq_some_iff.1 hq
    have hok := s.roundTripOk_iff.2 ⟨hs, hr, b, q, hq, ((decodeFb_eq_ok_iff b f).1 hb).1⟩
    simp [hf] at hok

/-- Settles O41: each of the three errors leaves an `afterError`, and only a size mismatch stores a datagram. -/
theorem failurePolicyIsUniform : Obligations.FailurePolicyIsUniform := by
  intro s ho hf
  have h := execCycle_of_opened s ho
  refine ⟨s.cycleBody, h, ?_⟩
  rcases execCycle_eq_afterError h hf with ht | ht | ⟨b, q, hq, hb, ht⟩ <;> rw [ht]
  · exact ⟨rfl, .inl rfl⟩
  · exact ⟨rfl, .inl rfl⟩
  · exact ⟨rfl, .inr ⟨b, q, hq, hb, rfl, rfl⟩⟩

/-! ## Between operations (R153) -/

/-- With no invocation to come the fetch advances to the same state. -/
theorem step_of_no_call {s : State} (hp : s.phase = .idle) (hc : s.calls = []) : step s = .next s := by
  simp [step, fetch, hp, hc]

/-- Settles O53: nothing is invoked, so nothing is run. -/
theorem idleHoldsState : Obligations.IdleHoldsState := fun _ => step_of_no_call

end Sys2Proof.Machine
end
